-- ==== Sys2Proof/Word.lean ====
section
/-! DEFINITION. The word types of the core: port words, CompactFloat patterns, the command word. -/

namespace Sys2Proof

/-- `w32` of 00_scope.md R10: a 32-bit port word, or a native float word (10_state.md R30). -/
abbrev Word := BitVec 32

/-- `cf12` of 00_scope.md R10: the 12-bit pattern of a CompactFloat (10_state.md R24). -/
abbrev CF := BitVec 12

/-- The 68-bit command word (op, a, b) of 30_encoding.md R60. -/
abbrev CommandWord := BitVec 68

end Sys2Proof
end

