-- ==== Sys2Proof/Syntax.lean ====
section
/-! DEFINITION. The commands of the core, one constructor per row of spec/opcode_table.json, and the written
notation for command sequences (30_encoding.md R68). -/

namespace Sys2Proof

/-- A command: an operation of 30_encoding.md R61 and the words on the two operand ports. Every constructor keeps
both ports whole, also the bits its operation ignores, so that encoding loses nothing (log entry 12). -/
inductive Instr where
  /-- `0x0` CLASS, 41_classifier.md R124. -/
  | classify (a b : Word)
  /-- `0x1` EQ, 42_compare.md R140. -/
  | eq (a b : Word)
  /-- `0x2` GT, 42_compare.md R141. -/
  | gt (a b : Word)
  /-- `0x3` LT, 42_compare.md R142. -/
  | lt (a b : Word)
  /-- `0x4` NEG, 43_unary.md R160. -/
  | neg (a b : Word)
  /-- `0x5` ABS, 43_unary.md R161. -/
  | abs (a b : Word)
  /-- `0x6` TOFP32, 44_to_fp32.md R170. -/
  | tofp32 (a b : Word)
  /-- `0x7` FROMFP32, 45_from_fp32.md R190. -/
  | fromfp32 (a b : Word)
  /-- `0x8` ADD, 46_add_sub.md R210. -/
  | add (a b : Word)
  /-- `0x9` SUB, 46_add_sub.md R217. -/
  | sub (a b : Word)
  /-- `0xA` MUL, 47_multiply.md R240. -/
  | mul (a b : Word)
  /-- `0xB` DIV, 48_divide.md R260. -/
  | div (a b : Word)
  /-- `0xC`, reserved, 30_encoding.md R66. -/
  | reservedC (a b : Word)
  /-- `0xD`, reserved, 30_encoding.md R66. -/
  | reservedD (a b : Word)
  /-- `0xE`, reserved, 30_encoding.md R66. -/
  | reservedE (a b : Word)
  /-- `0xF`, reserved, 30_encoding.md R66. -/
  | reservedF (a b : Word)
deriving DecidableEq, Repr

/-- The seven named constants of 10_state.md R27. -/
inductive NamedConstant where
  | posZero | negZero | minPositive | maxPositive | posInfinity | negInfinity | nan
deriving DecidableEq, Repr

/-- What may stand for `va` or `vb` in a line of 30_encoding.md R68. A host-side name is a number here (log entry 14). -/
inductive Source where
  /-- A name bound by an earlier line. -/
  | name (n : Nat)
  /-- `#0xHHH`: a 12-bit pattern. -/
  | pattern (v : CF)
  /-- `#0xHHHHHHHH`: a 32-bit word (FROMFP32 only). -/
  | word (v : Word)
  /-- `#f:<decimal>`: the native float nearest to plus or minus digits / 10^places (FROMFP32 only). -/
  | decimal (negative : Bool) (digits places : Nat)
  /-- A constant of 10_state.md R27. -/
  | constant (c : NamedConstant)
deriving DecidableEq, Repr

/-- Mnemonics of one-operand operations (30_encoding.md R62). -/
inductive UnaryOp where
  | classify | neg | abs | tofp32 | fromfp32
deriving DecidableEq, Repr

/-- Mnemonics of two-operand operations. -/
inductive BinaryOp where
  | eq | gt | lt | add | sub | mul | div
deriving DecidableEq, Repr

/-- One line of a command sequence (30_encoding.md R68): `MNEMONIC vd, va` or `MNEMONIC vd, va, vb`. -/
inductive Line where
  | unary (op : UnaryOp) (vd : Nat) (va : Source)
  | binary (op : BinaryOp) (vd : Nat) (va vb : Source)
deriving DecidableEq, Repr

end Sys2Proof
end

