-- ==== Sys2Proof/Config.lean ====
section
/-! DEFINITION. The four build-time parameters of 00_scope.md R7, as plain data. -/

namespace Sys2Proof

/-- The parameters of 00_scope.md R7 ("fixed when the core is built", 70_reset_and_hazards.md R331).
DESIGN CHOICE (log entry 3, safe): a `Config` travels inside `State`, because the types of `exec` and `step` leave
no other argument for it; so a claim over all states is a claim over all parameter values. -/
structure Config where
  /-- `P_NAN12`: the constant `NaN` and every NaN the core produces (10_state.md R27). -/
  nan12 : CF
  /-- `P_NAN32`: the native NaN that TOFP32 produces (44_to_fp32.md R171). -/
  nan32 : Word
  /-- `P_ZDZ_NAN`: whether 0/0 is `P_NAN12` (true) or a signed Infinity (false) (48_divide.md R262). -/
  zdzNan : Bool
  /-- `P_LATENCY`: cycles between command and result in a clocked wrapper. "No rule depends on it", so no
  definition of the model reads it (log entry 8). -/
  latency : Nat
deriving DecidableEq, Repr

/-- The defaults of 00_scope.md R7. -/
def Config.defaults : Config :=
  { nan12 := 0x7C0#12, nan32 := 0x7FC00000#32, zdzNan := false, latency := 0 }

end Sys2Proof
end

