-- ==== Sys2Proof/WellFormed.lean ====
section
/-! DEFINITION. The checks: which parameters are legal, which commands and which written lines are well formed. -/

namespace Sys2Proof

/-- The constraint on `P_NAN12` in 00_scope.md R7: exponent field 15, mantissa not 0. -/
def Config.nan12Legal (c : Config) : Bool :=
  c.nan12.extractLsb' 7 4 == 15#4 && c.nan12.extractLsb' 0 7 != 0#7

/-- The constraint on `P_NAN32` in 00_scope.md R7: raw exponent 255, mantissa not 0. -/
def Config.nan32Legal (c : Config) : Bool :=
  c.nan32.extractLsb' 23 8 == 255#8 && c.nan32.extractLsb' 0 23 != 0#23

/-- The parameters a core may be built with (00_scope.md R7; log entry 4). -/
def Config.legal (c : Config) : Bool :=
  c.nan12Legal && c.nan32Legal

/-- Every command is well formed: one format, both operand ports free (30_encoding.md R66: no "encoding that is
illegal for some operand values only"). Written by cases, so that a new command has to say so. -/
def Instr.wellFormed : Instr → Bool
  | .classify _ _ => true
  | .eq _ _ => true
  | .gt _ _ => true
  | .lt _ _ => true
  | .neg _ _ => true
  | .abs _ _ => true
  | .tofp32 _ _ => true
  | .fromfp32 _ _ => true
  | .add _ _ => true
  | .sub _ _ => true
  | .mul _ _ => true
  | .div _ _ => true
  | .reservedC _ _ => true
  | .reservedD _ _ => true
  | .reservedE _ _ => true
  | .reservedF _ _ => true

/-- 30_encoding.md R68: a 32-bit word literal and a decimal literal stand with FROMFP32 only. -/
def Source.allowed (wideAllowed : Bool) : Source → Bool
  | .name _ => true
  | .pattern _ => true
  | .word _ => wideAllowed
  | .decimal _ _ _ => wideAllowed
  | .constant _ => true

/-- 30_encoding.md R68: a name is "bound by an earlier line". -/
def Source.bound (names : List Nat) : Source → Bool
  | .name n => names.contains n
  | .pattern _ => true
  | .word _ => true
  | .decimal _ _ _ => true
  | .constant _ => true

/-- A line is well formed after lines that bound `names`. -/
def Line.wellFormed (names : List Nat) : Line → Bool
  | .unary op _ va => va.allowed (op == .fromfp32) && va.bound names
  | .binary _ _ va vb => va.allowed false && va.bound names && vb.allowed false && vb.bound names

/-- A straight-line sequence (30_encoding.md R68) is well formed: each line is, after the names bound before it. -/
def Line.sequenceWellFormed (names : List Nat) : List Line → Bool
  | [] => true
  | .unary op vd va :: rest =>
      (Line.unary op vd va).wellFormed names && sequenceWellFormed (vd :: names) rest
  | .binary op vd va vb :: rest =>
      (Line.binary op vd va vb).wellFormed names && sequenceWellFormed (vd :: names) rest

end Sys2Proof
end

