-- ==== Sys2Proof/Decode.lean ====
section
/-! DEFINITION. Decoding the three input ports, the command word and a table word; then the encoder; then the
operation table as data (30_encoding.md R60, R61). -/

namespace Sys2Proof

/-- 30_encoding.md R61: the operation code selects the operation; the two operand ports go with it whole. Total:
every code has a row, so no command is undecodable. The arms are the four leading bits of the rows' `encoding`. -/
def decodePorts (op : BitVec 4) (a b : Word) : Instr :=
  match op[3], op[2], op[1], op[0] with
  | false, false, false, false => .classify a b
  | false, false, false, true => .eq a b
  | false, false, true, false => .gt a b
  | false, false, true, true => .lt a b
  | false, true, false, false => .neg a b
  | false, true, false, true => .abs a b
  | false, true, true, false => .tofp32 a b
  | false, true, true, true => .fromfp32 a b
  | true, false, false, false => .add a b
  | true, false, false, true => .sub a b
  | true, false, true, false => .mul a b
  | true, false, true, true => .div a b
  | true, true, false, false => .reservedC a b
  | true, true, false, true => .reservedD a b
  | true, true, true, false => .reservedE a b
  | true, true, true, true => .reservedF a b

/-- `cmd[67:64]` (30_encoding.md R60). -/
def CommandWord.op (w : CommandWord) : BitVec 4 := w.extractLsb' 64 4

/-- `cmd[63:32]` (30_encoding.md R60). -/
def CommandWord.a (w : CommandWord) : Word := w.extractLsb' 32 32

/-- `cmd[31:0]` (30_encoding.md R60). -/
def CommandWord.b (w : CommandWord) : Word := w.extractLsb' 0 32

/-- Decoding of the command word of 30_encoding.md R60. -/
def decode (w : CommandWord) : Instr :=
  decodePorts (CommandWord.op w) (CommandWord.a w) (CommandWord.b w)

/-- Why a number spells no command. -/
inductive DecodeError where
  /-- The number does not fit the one fixed length of 68 bits (30_encoding.md R60). -/
  | longerThanOneCommand
deriving DecidableEq, Repr

/-- Decoding of a number read as a command word: total, rejecting by name what is longer than 68 bits. -/
def decodeNat (w : Nat) : Except DecodeError Instr :=
  if w < 2 ^ 68 then .ok (decode (BitVec.ofNat 68 w)) else .error .longerThanOneCommand

/-- The command that the decoder reads from a table word `w` (bit 0 is `b[0]`, bits 67:64 are `op`, as
opcode_table.json numbers them). The command has one length, so the count of bits adds nothing to `w`
(log entry 11). -/
def decodeTableWord (_nbits w : Nat) : Option Instr :=
  match decodeNat w with
  | .ok i => some i
  | .error _ => none

/-! ### The encoder -/

/-- The operation code of a command (30_encoding.md R61). -/
def Instr.code : Instr → BitVec 4
  | .classify _ _ => 0x0#4
  | .eq _ _ => 0x1#4
  | .gt _ _ => 0x2#4
  | .lt _ _ => 0x3#4
  | .neg _ _ => 0x4#4
  | .abs _ _ => 0x5#4
  | .tofp32 _ _ => 0x6#4
  | .fromfp32 _ _ => 0x7#4
  | .add _ _ => 0x8#4
  | .sub _ _ => 0x9#4
  | .mul _ _ => 0xA#4
  | .div _ _ => 0xB#4
  | .reservedC _ _ => 0xC#4
  | .reservedD _ _ => 0xD#4
  | .reservedE _ _ => 0xE#4
  | .reservedF _ _ => 0xF#4

/-- The word on port `a` (30_encoding.md R60). -/
def Instr.portA : Instr → Word
  | .classify a _ => a
  | .eq a _ => a
  | .gt a _ => a
  | .lt a _ => a
  | .neg a _ => a
  | .abs a _ => a
  | .tofp32 a _ => a
  | .fromfp32 a _ => a
  | .add a _ => a
  | .sub a _ => a
  | .mul a _ => a
  | .div a _ => a
  | .reservedC a _ => a
  | .reservedD a _ => a
  | .reservedE a _ => a
  | .reservedF a _ => a

/-- The word on port `b` (30_encoding.md R60). -/
def Instr.portB : Instr → Word
  | .classify _ b => b
  | .eq _ b => b
  | .gt _ b => b
  | .lt _ b => b
  | .neg _ b => b
  | .abs _ b => b
  | .tofp32 _ b => b
  | .fromfp32 _ b => b
  | .add _ b => b
  | .sub _ b => b
  | .mul _ b => b
  | .div _ b => b
  | .reservedC _ b => b
  | .reservedD _ b => b
  | .reservedE _ b => b
  | .reservedF _ b => b

/-- The command word (op, a, b) of 30_encoding.md R60. -/
def encode (i : Instr) : CommandWord := i.code ++ i.portA ++ i.portB

/-! ### The operation table as data -/

/-- A row of spec/opcode_table.json: "a command selects the row when `cmd & mask == match`" (30_encoding.md R61). -/
structure TableRow where
  mnemonic : String
  mask : CommandWord
  pattern : CommandWord
deriving DecidableEq, Repr

/-- `cmd & mask == match`. -/
def TableRow.selects (r : TableRow) (w : CommandWord) : Bool := w &&& r.mask == r.pattern

/-- Every row's mask: only `op` decodes. -/
def opMask : CommandWord := 0xF0000000000000000#68

/-- The sixteen rows of spec/opcode_table.json. -/
def opcodeTable : List TableRow := [
  ⟨"CLASS", opMask, 0x00000000000000000#68⟩,
  ⟨"EQ", opMask, 0x10000000000000000#68⟩,
  ⟨"GT", opMask, 0x20000000000000000#68⟩,
  ⟨"LT", opMask, 0x30000000000000000#68⟩,
  ⟨"NEG", opMask, 0x40000000000000000#68⟩,
  ⟨"ABS", opMask, 0x50000000000000000#68⟩,
  ⟨"TOFP32", opMask, 0x60000000000000000#68⟩,
  ⟨"FROMFP32", opMask, 0x70000000000000000#68⟩,
  ⟨"ADD", opMask, 0x80000000000000000#68⟩,
  ⟨"SUB", opMask, 0x90000000000000000#68⟩,
  ⟨"MUL", opMask, 0xA0000000000000000#68⟩,
  ⟨"DIV", opMask, 0xB0000000000000000#68⟩,
  ⟨"RESERVED_C", opMask, 0xC0000000000000000#68⟩,
  ⟨"RESERVED_D", opMask, 0xD0000000000000000#68⟩,
  ⟨"RESERVED_E", opMask, 0xE0000000000000000#68⟩,
  ⟨"RESERVED_F", opMask, 0xF0000000000000000#68⟩]

/-- The mnemonic of a command, as spec/opcode_table.json spells it. -/
def Instr.mnemonic : Instr → String
  | .classify _ _ => "CLASS"
  | .eq _ _ => "EQ"
  | .gt _ _ => "GT"
  | .lt _ _ => "LT"
  | .neg _ _ => "NEG"
  | .abs _ _ => "ABS"
  | .tofp32 _ _ => "TOFP32"
  | .fromfp32 _ _ => "FROMFP32"
  | .add _ _ => "ADD"
  | .sub _ _ => "SUB"
  | .mul _ _ => "MUL"
  | .div _ _ => "DIV"
  | .reservedC _ _ => "RESERVED_C"
  | .reservedD _ _ => "RESERVED_D"
  | .reservedE _ _ => "RESERVED_E"
  | .reservedF _ _ => "RESERVED_F"

end Sys2Proof
end

