-- ==== Sys2Proof/Machine/State.lean ====
section
/-! DEFINITION. The state (the ports, and the build-time parameters), the reasons to stop, and the state after reset. -/

namespace Sys2Proof.Machine

/-- The core "holds no architectural state" (10_state.md R20); what a machine state holds is the five ports of
10_state.md R23 and the parameters of 00_scope.md R7. The inputs are what the host holds on the ports; the outputs
are those of the last evaluation (log entries 1 and 6). No field is memory: there is none (20_memory.md R40). -/
structure State where
  /-- Build-time parameters; no command changes them (70_reset_and_hazards.md R331). -/
  cfg : Config
  /-- Input port `op`. -/
  op : BitVec 4
  /-- Input port `a`. -/
  a : Word
  /-- Input port `b`. -/
  b : Word
  /-- Output port `y`. -/
  y : Word
  /-- Output port `err` (1 is `true`, 00_scope.md R10). -/
  err : Bool
deriving DecidableEq, Repr

/-- Why a step could stop with a fault. -/
inductive Fault where
  /-- `raise RangeError(v)` of the builders `with_unbiased_exponent` and `with_mantissa` (40_fp32_fields.md R97,
  R98). Raised by those two helpers only. Safe: the machine stops where FP12 aborts, and no command reaches it
  (60_exceptions.md R302; log entry 7). -/
  | rangeError (v : Int)
deriving DecidableEq, Repr

/-- Why a step could refuse. -/
inductive Refusal where
  /-- An instruction without a meaning; raised by refused arms of `exec` only, and there is none (safe). -/
  | notModelled (mnemonic : String)
deriving DecidableEq, Repr

/-- The state right after reset: parameters at the defaults of 00_scope.md R7. The core has no reset (10_state.md
R32), so the inputs are the host's; DESIGN CHOICE (log entry 2, unsafe): all three ports are 0. The outputs are then
what R32 says, the function of the inputs: the CLASS word of `0x000` (95_test_vectors.md T1, first row). -/
def State.reset : State :=
  { cfg := Config.defaults, op := 0#4, a := 0#32, b := 0#32, y := 0xB1A00000#32, err := false }

end Sys2Proof.Machine
end

