-- ==== Sys2Proof/Machine/Ops.lean ====
section
/-! DEFINITION. Shared operations: driving the input ports, answering on the output ports in each result format, the
bounded loop, and a mantissa with its working exponent. There is no memory, register or exception entry to operate on
(20_memory.md R40, 10_state.md R20, 60_exceptions.md R306). -/

namespace Sys2Proof.Machine

/-! ### Ports -/

/-- The host drives the three input ports with the fields of a command word (30_encoding.md R60). The outputs are
those of the last evaluation until the next step (log entry 6). -/
def State.present (s : State) (w : CommandWord) : State :=
  { s with op := CommandWord.op w, a := CommandWord.a w, b := CommandWord.b w }

/-- The command on the input ports (10_state.md R23, 30_encoding.md R61). -/
def State.command (s : State) : Instr := decodePorts s.op s.a s.b

/-- The one thing a command does: drive `y` and `err` (10_state.md R20, R23). -/
def State.answer (s : State) (y : Word) (err : Bool) : Host.Outcome State Fault Refusal :=
  .next { s with y := y, err := err }

/-- Result format CF (30_encoding.md R63): `y[11:0]` is the pattern, `y[31:12] = 0`, `err = 0`. -/
def State.answerCF (s : State) (r : CF) : Host.Outcome State Fault Refusal :=
  s.answer (r.setWidth 32) false

/-- Result formats F32 and CLASSW (30_encoding.md R64, R65): the whole word, `err = 0`. -/
def State.answerWord (s : State) (r : Word) : Host.Outcome State Fault Refusal :=
  s.answer r false

/-- Result format BOOL (30_encoding.md R64): `y[0]` is 1 for true and 0 for false, `y[31:1] = 0`, `err = 0`. -/
def State.answerBool (s : State) (r : Bool) : Host.Outcome State Fault Refusal :=
  s.answer ((BitVec.ofBool r).setWidth 32) false

/-- Result format ERR (30_encoding.md R66, R67): `y = 0`, `err = 1`. The core's one error report (60_exceptions.md
R303): nothing is saved and control goes nowhere (R306). -/
def State.answerErr (s : State) : Host.Outcome State Fault Refusal :=
  s.answer 0#32 true

/-! ### Loops -/

/-- `while cond: body` (00_scope.md R13), for at most `fuel` rounds. Each use gives the bound of
70_reset_and_hazards.md R335 as fuel, which is enough for every operand (log entry 9). -/
def whileLoop {α : Type} (cond : α → Bool) (body : α → α) : Nat → α → α
  | 0, v => v
  | fuel + 1, v => if cond v then whileLoop cond body fuel (body v) else v

/-- An integer mantissa with the working exponent that goes with it (10_state.md R31: `int` working variables). -/
structure Scaled where
  m : Nat
  e : Int
deriving DecidableEq, Repr

/-- One place left, exponent decremented. -/
def Scaled.shl (v : Scaled) : Scaled := ⟨v.m <<< 1, v.e - 1⟩

/-- One place right (the low bit is lost, 00_scope.md R11), exponent incremented. -/
def Scaled.shr (v : Scaled) : Scaled := ⟨v.m >>> 1, v.e + 1⟩

end Sys2Proof.Machine
end

