-- ==== Sys2Proof/Machine/Operands.lean ====
section
/-! DEFINITION. Operand slices (30_encoding.md R62), the fields of a CompactFloat pattern, packing, constants. -/

namespace Sys2Proof.Machine

/-! ### Operand forms (30_encoding.md R62) -/

/-- A CompactFloat operand: bits 11:0 of the port; bits 31:12 are ignored (10_state.md R26). -/
def cfOperand (port : Word) : CF := port.extractLsb' 0 12

/-- The native-float operand of FROMFP32: all 32 bits of the port. -/
def wordOperand (port : Word) : Word := port

/-! ### Fields (41_classifier.md R110 to R114, R122) -/

/-- R110. -/
def sign (x : CF) : BitVec 1 := x.extractLsb' 11 1

/-- R111: the raw biased exponent. -/
def exponent (x : CF) : BitVec 4 := x.extractLsb' 7 4

/-- R112. -/
def mantissa (x : CF) : BitVec 7 := x.extractLsb' 0 7

/-- R113: pinned to -6 for exponent 0; 8 for exponent 15 (decision D7). -/
def unbiasedExponent (x : CF) : Int :=
  if exponent x = 0#4 then -6
  else if exponent x = 15#4 then 8
  else ((exponent x).toNat : Int) - 7

/-- R114: the implicit bit is set when the exponent field is at least 1, 15 included. -/
def fullMantissa (x : CF) : BitVec 8 :=
  if 1#4 ≤ exponent x then 0x80#8 ||| (mantissa x).setWidth 8 else (mantissa x).setWidth 8

/-- `tc_5` (00_scope.md R12, 41_classifier.md R122). -/
def tc5 (i : Int) : BitVec 5 := BitVec.ofInt 5 i

/-! ### Packing and constants (10_state.md R25, R27) -/

/-- R25. -/
def pack (s : BitVec 1) (e : BitVec 4) (m : BitVec 7) : CF := s ++ e ++ m

/-- `inf(s)` of R27. -/
def inf (s : BitVec 1) : CF := pack s 15#4 0#7

/-- `zero(s)` of R27. -/
def zero (s : BitVec 1) : CF := pack s 0#4 0#7

/-- The seven named constants of R27; `NaN` is the parameter `P_NAN12`. -/
def constantPattern (cfg : Config) : NamedConstant → CF
  | .posZero => zero 0#1
  | .negZero => zero 1#1
  | .minPositive => pack 0#1 0#4 1#7
  | .maxPositive => pack 0#1 14#4 127#7
  | .posInfinity => inf 0#1
  | .negInfinity => inf 1#1
  | .nan => cfg.nan12

end Sys2Proof.Machine
end

