-- ==== Sys2Proof/Machine/Flags.lean ====
section
/-! DEFINITION. The special-value predicates of 41_classifier.md. The core has no flags (10_state.md R22): these are
values computed from one pattern, delivered only in the CLASS word. -/

namespace Sys2Proof.Machine

/-- R115: the sign is not examined. -/
def isNan (x : CF) : Bool := exponent x == 15#4 && mantissa x != 0#7

/-- R116. -/
def isPositiveInfinity (x : CF) : Bool := sign x == 0#1 && exponent x == 15#4 && mantissa x == 0#7

/-- R117. -/
def isNegativeInfinity (x : CF) : Bool := sign x == 1#1 && exponent x == 15#4 && mantissa x == 0#7

/-- R118, with 90_conflicts.md C1: exponent 0, zero included. -/
def isDenormalized (x : CF) : Bool := exponent x == 0#4

/-- R119. -/
def isPositiveZero (x : CF) : Bool := x == 0x000#12

/-- R120. -/
def isNegativeZero (x : CF) : Bool := x == 0x800#12

/-- R121: either sign of zero. -/
def isZero (x : CF) : Bool := exponent x == 0#4 && mantissa x == 0#7

/-- R123: the shorthand of the arithmetic rules. -/
def isInfinity (x : CF) : Bool := exponent x == 15#4 && mantissa x == 0#7

/-- Finite: exponent field not 15 (10_state.md R29). -/
def isFinite (x : CF) : Bool := exponent x != 15#4

/-- Normalized: exponent field in 1..14 (10_state.md R24). -/
def isNormalized (x : CF) : Bool := exponent x != 0#4 && exponent x != 15#4

end Sys2Proof.Machine
end

