-- ==== Sys2Proof/Machine/SignUnit.lean ====
section
/-! DEFINITION. `compactfloat_sign_unit`: NEG, ABS (43_unary.md). -/

namespace Sys2Proof.Machine

/-- R160: the sign bit only, NaN and zero included. -/
def negate (x : CF) : CF := x ^^^ 0x800#12

/-- R161: a NaN comes back unchanged. -/
def absolute (x : CF) : CF := if isNan x then x else x &&& 0x7FF#12

/-- NEG, R160. -/
def execNeg (a _b : Word) (s : State) : Host.Outcome State Fault Refusal :=
  s.answerCF (negate (cfOperand a))

/-- ABS, R161. -/
def execAbs (a _b : Word) (s : State) : Host.Outcome State Fault Refusal :=
  s.answerCF (absolute (cfOperand a))

end Sys2Proof.Machine
end

