-- ==== Sys2Proof/Machine/AddSub.lean ====
section
/-! DEFINITION. `compactfloat_adder_subtractor`: ADD, SUB (46_add_sub.md). The results that are not the truncated
exact sum (R219 to R221) are reproduced, not repaired. -/

namespace Sys2Proof.Machine

/-- The operands of an addition after R212: two full mantissas at one working exponent. -/
structure Aligned where
  fa : Nat
  fb : Nat
  e : Int
deriving DecidableEq, Repr

/-- R212: alignment on the RAW exponents, with a truncating right shift of the smaller-exponent mantissa. -/
def align (p q : CF) : Aligned :=
  let fa := (fullMantissa p).toNat
  let fb := (fullMantissa q).toNat
  let ea := (exponent p).toNat
  let eb := (exponent q).toNat
  if eb ≤ ea then ⟨fa, fb >>> (ea - eb), ea⟩ else ⟨fa >>> (eb - ea), fb, eb⟩

/-- R213, first loop: the sum is above the 8-bit range. -/
def above8 (v : Scaled) : Bool := decide (255 < v.m)

/-- R213, second loop (dead by R216): the implicit bit is missing above exponent 0. -/
def lostLeadingBit (v : Scaled) : Bool := decide (v.m < 128 ∧ 0 < v.e)

/-- R214: the implicit bit is missing above exponent 1. -/
def aboveDenormalFloor (v : Scaled) : Bool := decide (v.m < 128 ∧ 1 < v.e)

/-- R213, carry propagation: at most one round (R335). -/
def carried (v : Aligned) : Scaled := whileLoop above8 Scaled.shr 1 ⟨v.fa + v.fb, v.e⟩

/-- R213, step 3. The second loop decrements the exponent, so it could run at most `e` times. -/
def addSameSign (s : BitVec 1) (v : Aligned) : CF :=
  let c := carried v
  let w := whileLoop lostLeadingBit Scaled.shl c.e.toNat c
  if w.e > 14 then inf s else pack s (BitVec.ofInt 4 w.e) (BitVec.ofNat 7 (w.m &&& 0x7F))

/-- R214, R215: the smaller aligned mantissa from the larger; a tie gives 0 with sign 0. -/
def difference (sp sq : BitVec 1) (v : Aligned) : BitVec 1 × Nat :=
  if v.fb < v.fa then (sp, v.fa - v.fb)
  else if v.fa < v.fb then (sq, v.fb - v.fa)
  else (0#1, 0)

/-- R214, step 4: at most 13 rounds (R335); without the implicit bit the exponent field is 0. -/
def addDifferentSign (sp sq : BitVec 1) (v : Aligned) : CF :=
  let r := difference sp sq v
  let w := whileLoop aboveDenormalFloor Scaled.shl 13 ⟨r.2, v.e⟩
  let e := if w.m < 128 then 0 else w.e
  pack r.1 (BitVec.ofInt 4 e) (BitVec.ofNat 7 (w.m &&& 0x7F))

/-- R210, steps 2 to 4, for finite operands. -/
def addFinite (p q : CF) : CF :=
  if sign p = sign q then addSameSign (sign p) (align p q)
  else addDifferentSign (sign p) (sign q) (align p q)

/-- R210, with the special values of R211 first. -/
def add (cfg : Config) (p q : CF) : CF :=
  if isNan p || isNan q then cfg.nan12
  else if isInfinity p && isInfinity q then (if sign p = sign q then p else cfg.nan12)
  else if isInfinity p then p
  else if isInfinity q then q
  else addFinite p q

/-- R217. -/
def subtract (cfg : Config) (p q : CF) : CF := add cfg p (negate q)

/-- ADD, R210. -/
def execAdd (a b : Word) (s : State) : Host.Outcome State Fault Refusal :=
  s.answerCF (add s.cfg (cfOperand a) (cfOperand b))

/-- SUB, R217. -/
def execSub (a b : Word) (s : State) : Host.Outcome State Fault Refusal :=
  s.answerCF (subtract s.cfg (cfOperand a) (cfOperand b))

end Sys2Proof.Machine
end

