-- ==== Sys2Proof/Machine/Classifier.lean ====
section
/-! DEFINITION. `compactfloat_classifier`: CLASS (41_classifier.md R124). -/

namespace Sys2Proof.Machine

/-- The classification word, from bit 31 down (30_encoding.md R65). -/
def classWord (x : CF) : Word :=
  BitVec.ofBool (isZero x) ++ BitVec.ofBool (isNegativeZero x) ++ BitVec.ofBool (isPositiveZero x)
    ++ BitVec.ofBool (isDenormalized x) ++ BitVec.ofBool (isNegativeInfinity x)
    ++ BitVec.ofBool (isPositiveInfinity x) ++ BitVec.ofBool (isNan x)
    ++ tc5 (unbiasedExponent x) ++ fullMantissa x ++ sign x ++ exponent x ++ mantissa x

/-- CLASS, 41_classifier.md R124. -/
def execClassify (a _b : Word) (s : State) : Host.Outcome State Fault Refusal :=
  s.answerWord (classWord (cfOperand a))

end Sys2Proof.Machine
end

