-- ==== Sys2Proof/Machine/Comparator.lean ====
section
/-! DEFINITION. `compactfloat_comparator`: EQ, GT, LT (42_compare.md). -/

namespace Sys2Proof.Machine

/-- R140: NaN equals nothing; otherwise identical patterns, or both zero. -/
def equals (p q : CF) : Bool :=
  if isNan p || isNan q then false
  else if p == q then true
  else isZero p && isZero q

/-- R145: the magnitude key (raw exponent, full mantissa). -/
def key (x : CF) : Nat × Nat := ((exponent x).toNat, (fullMantissa x).toNat)

/-- `<lex` of 00_scope.md R11. -/
def lexLess (k l : Nat × Nat) : Bool := decide (k.1 < l.1 ∨ k.1 = l.1 ∧ k.2 < l.2)

/-- R141. -/
def greaterThan (p q : CF) : Bool :=
  if isNan p || isNan q then false
  else if isInfinity p && isInfinity q then sign p == 0#1 && sign q == 1#1
  else if sign p != sign q then
    if sign p == 0#1 then !(isZero p && isZero q) else false
  else if sign p == 0#1 then lexLess (key q) (key p)
  else lexLess (key p) (key q)

/-- R142, R143 (90_conflicts.md C3): GT with the operands exchanged. -/
def lessThan (p q : CF) : Bool := greaterThan q p

/-- EQ, R140. -/
def execEq (a b : Word) (s : State) : Host.Outcome State Fault Refusal :=
  s.answerBool (equals (cfOperand a) (cfOperand b))

/-- GT, R141. -/
def execGt (a b : Word) (s : State) : Host.Outcome State Fault Refusal :=
  s.answerBool (greaterThan (cfOperand a) (cfOperand b))

/-- LT, R142. -/
def execLt (a b : Word) (s : State) : Host.Outcome State Fault Refusal :=
  s.answerBool (lessThan (cfOperand a) (cfOperand b))

end Sys2Proof.Machine
end

