-- ==== Sys2Proof/Machine/Multiplier.lean ====
section
/-! DEFINITION. `compactfloat_multiplier`: MUL (47_multiply.md), and `finish`, the tail shared with DIV (R246). -/

namespace Sys2Proof.Machine

/-- R246, first loop: above the 8-bit threshold. -/
def above8Bits (v : Scaled) : Bool := decide (255 < v.m)

/-- R246, second loop (the exponent is biased here). -/
def belowNormal (v : Scaled) : Bool := decide (v.e < 1 ∧ v.m ≠ 0)

/-- R246: the value `m * 2^(e-7)` with sign `sg`, renormalised, saturated, denormalised and packed. At most 7 rounds
of the first loop and 8 of the second (R335). -/
def finish (sg : BitVec 1) (m : Nat) (e : Int) : CF :=
  let v := whileLoop above8Bits Scaled.shr 7 ⟨m, e⟩
  let be := v.e + 7
  if be > 14 then inf sg
  else
    let w := whileLoop belowNormal Scaled.shr 8 ⟨v.m, be⟩
    if w.m = 0 then zero sg
    else if w.m < 128 then pack sg (BitVec.ofInt 4 (w.e - 1)) (BitVec.ofNat 7 w.m)
    else pack sg (BitVec.ofInt 4 w.e) (BitVec.ofNat 7 (w.m &&& 0x7F))

/-- R244: the integer product of the full mantissas and the sum of the unbiased exponents. -/
def rawProduct (p q : CF) : Scaled :=
  ⟨(fullMantissa p).toNat * (fullMantissa q).toNat, unbiasedExponent p + unbiasedExponent q⟩

/-- R245: below the squared-implicit-bit threshold 128 * 128. -/
def belowSquaredImplicit (v : Scaled) : Bool := decide (v.m < 16384)

/-- R245, left shifts: at most 14 rounds (R335). -/
def normalizedProduct (p q : CF) : Scaled :=
  whileLoop belowSquaredImplicit Scaled.shl 14 (rawProduct p q)

/-- R244 to R247, for finite nonzero operands. -/
def mulFinite (sg : BitVec 1) (p q : CF) : CF :=
  let v := normalizedProduct p q
  let pr := v.m >>> 7
  if pr = 0 then zero sg else finish sg pr v.e

/-- R240, with the special values in the order of R241 to R243. -/
def multiply (cfg : Config) (p q : CF) : CF :=
  let sg := sign p ^^^ sign q
  if isNan p || isNan q then cfg.nan12
  else if isZero p || isZero q then zero sg
  else if isInfinity p || isInfinity q then inf sg
  else mulFinite sg p q

/-- MUL, R240. -/
def execMul (a b : Word) (s : State) : Host.Outcome State Fault Refusal :=
  s.answerCF (multiply s.cfg (cfOperand a) (cfOperand b))

end Sys2Proof.Machine
end

