-- ==== Sys2Proof/Machine/Divider.lean ====
section
/-! DEFINITION. `compactfloat_divider`: DIV (48_divide.md). -/

namespace Sys2Proof.Machine

/-- R265: the fixed-point quotient and the difference of the unbiased exponents. -/
def rawQuotient (p q : CF) : Scaled :=
  ⟨((fullMantissa p).toNat <<< 7) / (fullMantissa q).toNat, unbiasedExponent p - unbiasedExponent q⟩

/-- R267: below the implicit-bit threshold. -/
def belowImplicit (v : Scaled) : Bool := decide (v.m < 128)

/-- R267, left shifts: at most 7 rounds (R335). -/
def normalizedQuotient (p q : CF) : Scaled :=
  whileLoop belowImplicit Scaled.shl 7 (rawQuotient p q)

/-- R265 to R268, for a finite dividend and a finite nonzero divisor. -/
def divFinite (sg : BitVec 1) (p q : CF) : CF :=
  if (rawQuotient p q).m = 0 then zero sg
  else finish sg (normalizedQuotient p q).m (normalizedQuotient p q).e

/-- R260, with the special values in the order of R269. -/
def divide (cfg : Config) (p q : CF) : CF :=
  let sg := sign p ^^^ sign q
  if isNan p || isNan q then cfg.nan12
  else if isZero q then (if isZero p && cfg.zdzNan then cfg.nan12 else inf sg)
  else if isInfinity p then (if isInfinity q then cfg.nan12 else inf sg)
  else if isInfinity q then zero sg
  else divFinite sg p q

/-- DIV, R260. -/
def execDiv (a b : Word) (s : State) : Host.Outcome State Fault Refusal :=
  s.answerCF (divide s.cfg (cfOperand a) (cfOperand b))

end Sys2Proof.Machine
end

