-- ==== Sys2Proof/Machine/Fp32Fields.lean ====
section
/-! DEFINITION. `fp32_fields`: the accessors and builders on the native float word (40_fp32_fields.md). -/

namespace Sys2Proof.Machine

/-- R91: `from_float` is the identity on the word, and so is `to_float`. -/
def fromFloat (w : Word) : Word := w

/-- R91. -/
def toFloat (w : Word) : Word := w

/-- R92. -/
def fSign (w : Word) : BitVec 1 := w.extractLsb' 31 1

/-- R93: raw biased exponent. -/
def fExponent (w : Word) : BitVec 8 := w.extractLsb' 23 8

/-- R94: the subtraction applies to raw 0 and 255 too (decision D27). -/
def fUnbiasedExponent (w : Word) : Int := ((fExponent w).toNat : Int) - 127

/-- R95. -/
def fMantissa (w : Word) : BitVec 23 := w.extractLsb' 0 23

/-- R96: cannot fail. -/
def withSign (w : Word) (s : BitVec 1) : Word := s ++ w.extractLsb' 0 31

/-- R97: a range error outside -126..127. -/
def withUnbiasedExponent (w : Word) (e : Int) : Except Fault Word :=
  if e < -126 ∨ 127 < e then .error (.rangeError e)
  else .ok (w.extractLsb' 31 1 ++ BitVec.ofInt 8 (e + 127) ++ w.extractLsb' 0 23)

/-- R98: a range error from `2^23` on. -/
def withMantissa (w : Word) (m : Nat) : Except Fault Word :=
  if 2 ^ 23 ≤ m then .error (.rangeError m)
  else .ok (w.extractLsb' 23 9 ++ BitVec.ofNat 23 m)

end Sys2Proof.Machine
end

