-- ==== Sys2Proof/Machine/FromFp32.lean ====
section
/-! DEFINITION. `compactfloat_converter_from_fp32`: FROMFP32 (45_from_fp32.md). -/

namespace Sys2Proof.Machine

/-- R193: the implicit bit is reinstated unconditionally (decision D12). -/
def nativeFull (w : Word) : Nat := 0x800000 ||| (fMantissa w).toNat

/-- R194: the candidate biased exponent. -/
def candidate (w : Word) : Int := fUnbiasedExponent w + 7

/-- The loop condition of R198. -/
def belowBoundary (v : Scaled) : Bool := decide (v.e < 0 ∧ v.m ≠ 0)

/-- R195 to R199, for a finite native word of sign `s`; the loop of R198 runs at most 24 times (R335). -/
def narrow (s : BitVec 1) (full : Nat) (c : Int) : CF :=
  if c > 14 then inf s
  else if 1 ≤ c then pack s (BitVec.ofInt 4 c) (BitVec.ofNat 7 ((full >>> 16) &&& 0x7F))
  else if c = 0 then pack s 0#4 (BitVec.ofNat 7 ((full >>> 16) >>> 1))
  else
    let v := whileLoop belowBoundary Scaled.shr 24 ⟨full, c⟩
    if v.e < 0 ∨ v.m = 0 then zero s
    else pack s 0#4 (BitVec.ofNat 7 ((v.m >>> 16) >>> 1))

/-- R190 to R199. -/
def fromFp32 (cfg : Config) (w : Word) : CF :=
  if fExponent w = 255#8 ∧ fMantissa w ≠ 0#23 then cfg.nan12
  else if fExponent w = 255#8 ∧ fMantissa w = 0#23 then inf (fSign w)
  else narrow (fSign w) (nativeFull w) (candidate w)

/-- FROMFP32, R190. -/
def execFromfp32 (a _b : Word) (s : State) : Host.Outcome State Fault Refusal :=
  s.answerCF (fromFp32 s.cfg (fromFloat (wordOperand a)))

end Sys2Proof.Machine
end

