-- ==== Sys2Proof/Machine/Reserved.lean ====
section
/-! DEFINITION. The reserved codes `0xC` to `0xF` (30_encoding.md R66): `y = 0`, `err = 1`, operands not examined.
DEDUCED (log entry 5, safe): this outcome is a next state, since the spec gives it in full. -/

namespace Sys2Proof.Machine

/-- Code `0xC`, R66. -/
def execReservedC (_a _b : Word) (s : State) : Host.Outcome State Fault Refusal := s.answerErr

/-- Code `0xD`, R66. -/
def execReservedD (_a _b : Word) (s : State) : Host.Outcome State Fault Refusal := s.answerErr

/-- Code `0xE`, R66. -/
def execReservedE (_a _b : Word) (s : State) : Host.Outcome State Fault Refusal := s.answerErr

/-- Code `0xF`, R66. -/
def execReservedF (_a _b : Word) (s : State) : Host.Outcome State Fault Refusal := s.answerErr

end Sys2Proof.Machine
end

