-- ==== Sys2Proof/Machine/ToFp32.lean ====
section
/-! DEFINITION. `compactfloat_converter_to_fp32`: TOFP32 (44_to_fp32.md). -/

namespace Sys2Proof.Machine

/-- R174: the mantissa widened by 16 places, with the unbiased exponent. -/
def widen (x : CF) : Scaled := ⟨(mantissa x).toNat <<< 16, unbiasedExponent x⟩

/-- The loop condition of R175: bit 23 is still clear. -/
def bit23Clear (v : Scaled) : Bool := !v.m.testBit 23

/-- R175: a nonzero denormal is shifted up to bit 23, and bit 23 is then cleared; at most 7 shifts (R335). -/
def unpackDenormal (v : Scaled) : Scaled :=
  let w := whileLoop bit23Clear Scaled.shl 7 v
  ⟨w.m &&& 0x7FFFFF, w.e⟩

/-- R174, R175: the mantissa and unbiased exponent handed to the builders, for a finite nonzero operand. -/
def fp32Parts (x : CF) : Scaled :=
  if exponent x = 0#4 then unpackDenormal (widen x) else widen x

/-- R176 to R178: sign, unbiased exponent, mantissa, from the word 0. -/
def composeFp32 (s : BitVec 1) (v : Scaled) : Except Fault Word :=
  match withUnbiasedExponent (withSign 0#32 s) v.e with
  | .error f => .error f
  | .ok w => withMantissa w v.m

/-- R170 to R178. -/
def toFp32 (cfg : Config) (x : CF) : Except Fault Word :=
  if isNan x then .ok cfg.nan32
  else if isInfinity x then .ok (sign x ++ 0xFF#8 ++ 0#23)
  else if isZero x then .ok (sign x ++ 0#31)
  else composeFp32 (sign x) (fp32Parts x)

/-- TOFP32, R170. The fault branch is the builders' range error; no operand reaches it (R180). -/
def execTofp32 (a _b : Word) (s : State) : Host.Outcome State Fault Refusal :=
  match toFp32 s.cfg (cfOperand a) with
  | .ok w => s.answerWord (toFloat w)
  | .error f => .fault f

end Sys2Proof.Machine
end

