-- ==== Sys2Proof/Machine/Dispatch.lean ====
section
/-! DEFINITION. One arm per command (30_encoding.md R61). -/

namespace Sys2Proof.Machine

def exec (i : Instr) (s : State) : Host.Outcome State Fault Refusal :=
  match i with
  | .classify a b => Sys2Proof.Machine.execClassify a b s
  | .eq a b => Sys2Proof.Machine.execEq a b s
  | .gt a b => Sys2Proof.Machine.execGt a b s
  | .lt a b => Sys2Proof.Machine.execLt a b s
  | .neg a b => Sys2Proof.Machine.execNeg a b s
  | .abs a b => Sys2Proof.Machine.execAbs a b s
  | .tofp32 a b => Sys2Proof.Machine.execTofp32 a b s
  | .fromfp32 a b => Sys2Proof.Machine.execFromfp32 a b s
  | .add a b => Sys2Proof.Machine.execAdd a b s
  | .sub a b => Sys2Proof.Machine.execSub a b s
  | .mul a b => Sys2Proof.Machine.execMul a b s
  | .div a b => Sys2Proof.Machine.execDiv a b s
  | .reservedC a b => Sys2Proof.Machine.execReservedC a b s
  | .reservedD a b => Sys2Proof.Machine.execReservedD a b s
  | .reservedE a b => Sys2Proof.Machine.execReservedE a b s
  | .reservedF a b => Sys2Proof.Machine.execReservedF a b s

end Sys2Proof.Machine
end

