-- ==== Sys2Proof/Machine/Step.lean ====
section
/-! DEFINITION. One step: one evaluation of the command on the ports (00_scope.md R14). -/

namespace Sys2Proof.Machine

/-- One evaluation (00_scope.md R14): the command the host holds on the ports drives the outputs. There is no
program counter (10_state.md R21); a further step with the same inputs evaluates the same command (log entry 6). -/
def step (s : State) : Host.Outcome State Fault Refusal := exec s.command s

/-- The host puts the command word `w` on the input ports; `step` evaluates it next. There is no program store: this
stands for the host presenting the command (10_state.md R21; log entry 6). -/
def State.withFetchWord (s : State) (_nbits w : Nat) : State := s.present (BitVec.ofNat 68 w)

end Sys2Proof.Machine
end

