-- ==== Sys2Proof/Machine/Value.lean ====
section
/-! DEFINITION. What the bit patterns mean as real numbers (10_state.md R24, R30), and truncation toward zero. No
command reads these: claims are stated with them (log entry 13). -/

namespace Sys2Proof.Machine

/-- R24, the value column without its sign: `2^-6 * M/128` for exponent 0, `2^(E-7) * (1 + M/128)` for exponents
1..14. (For exponent 15 the pattern has no finite value; claims use this for finite patterns only.) -/
def magnitude (x : CF) : ℚ :=
  if exponent x = 0#4 then ((mantissa x).toNat : ℚ) / 128 / 2 ^ 6
  else (1 + ((mantissa x).toNat : ℚ) / 128) * 2 ^ (exponent x).toNat / 2 ^ 7

/-- R24, with the factor `(-1)^S`. -/
def value (x : CF) : ℚ := if sign x = 0#1 then magnitude x else -magnitude x

/-- The value of a pattern that is no NaN, with the infinities as the ends of the extended line (42_compare.md R146). -/
def extendedValue (x : CF) : WithBot (WithTop ℚ) :=
  if isPositiveInfinity x then ⊤
  else if isNegativeInfinity x then ⊥
  else ((value x : WithTop ℚ) : WithBot (WithTop ℚ))

/-- R30: the magnitude of a native word whose raw exponent is not 255; a raw exponent of 0 has no implicit bit. -/
def nativeMagnitude (w : Word) : ℚ :=
  if fExponent w = 0#8 then ((fMantissa w).toNat : ℚ) / 2 ^ 23 / 2 ^ 126
  else (1 + ((fMantissa w).toNat : ℚ) / 2 ^ 23) * 2 ^ (fExponent w).toNat / 2 ^ 127

/-- R30, with the sign bit. -/
def nativeValue (w : Word) : ℚ := if fSign w = 0#1 then nativeMagnitude w else -nativeMagnitude w

/-- R30: raw exponent 255 with mantissa other than 0. -/
def isNativeNan (w : Word) : Bool := fExponent w == 255#8 && fMantissa w != 0#23

/-- The value of a native word that is no NaN, with the infinities of R30 as the ends of the extended line. -/
def nativeExtendedValue (w : Word) : WithBot (WithTop ℚ) :=
  if fExponent w = 255#8 then (if fSign w = 0#1 then ⊤ else ⊥)
  else ((nativeValue w : WithTop ℚ) : WithBot (WithTop ℚ))

/-- `r` is the number of sign `s` and exact magnitude `m`, truncated toward zero to a representable value and
saturated: the signed Infinity from 256 on, otherwise the largest-magnitude CompactFloat whose magnitude does not
exceed `m` (47_multiply.md R250; the signed zero below `2^-13`). -/
def TruncatesTo (s : BitVec 1) (m : ℚ) (r : CF) : Prop :=
  sign r = s ∧
    if 256 ≤ m then r = inf s
    else isFinite r = true ∧ magnitude r ≤ m ∧ ∀ z, isFinite z = true → magnitude z ≤ m → magnitude z ≤ magnitude r

end Sys2Proof.Machine
end

