-- ==== Sys2Proof/Machine/ClosedForms.lean ====
section
/-! DEFINITION. Loop-free forms of the conversions and of addition, for claims to compare the commands with. The
commands themselves follow the step lists (ToFp32, FromFp32, AddSub). -/

namespace Sys2Proof.Machine

/-- 44_to_fp32.md R179, with the special values of R171 to R173. -/
def toFp32Closed (cfg : Config) (x : CF) : Word :=
  let mant := (mantissa x).toNat
  let k := mant.log2
  if isNan x then cfg.nan32
  else if isInfinity x then sign x ++ 0xFF#8 ++ 0#23
  else if isZero x then sign x ++ 0#31
  else if exponent x = 0#4 then
    sign x ++ BitVec.ofNat 8 (114 + k) ++ BitVec.ofNat 7 (mant * 2 ^ (7 - k)) ++ 0#16
  else sign x ++ BitVec.ofNat 8 ((exponent x).toNat + 120) ++ mantissa x ++ 0#16

/-- 45_from_fp32.md R200. -/
def fromFp32Closed (cfg : Config) (w : Word) : CF :=
  let r := (fExponent w).toNat
  let full := 2 ^ 23 + (fMantissa w).toNat
  if r = 255 then (if fMantissa w ≠ 0#23 then cfg.nan12 else inf (fSign w))
  else if 135 ≤ r then inf (fSign w)
  else if 121 ≤ r then pack (fSign w) (BitVec.ofNat 4 (r - 120)) (w.extractLsb' 16 7)
  else if r ≤ 113 then zero (fSign w)
  else pack (fSign w) 0#4 (BitVec.ofNat 7 (full / 2 ^ (137 - r)))

/-- 46_add_sub.md R210, finite operands of one sign `s`, after alignment to the raw exponent `e`. -/
def sumClosed (s : BitVec 1) (fa fb e : Nat) : CF :=
  let t := fa + fb
  if t ≤ 255 then pack s (BitVec.ofNat 4 e) (BitVec.ofNat 7 (t % 128))
  else if e = 14 then inf s
  else pack s (BitVec.ofNat 4 (e + 1)) (BitVec.ofNat 7 (t / 2 % 128))

/-- 46_add_sub.md R210, finite operands of different signs: the nonzero difference `d` with sign `s`, moved up by as
many places as it lacks, but not below exponent 1. -/
def differenceClosed (s : BitVec 1) (d e : Nat) : CF :=
  let k := min (7 - d.log2) (e - 1)
  if d * 2 ^ k < 128 then pack s 0#4 (BitVec.ofNat 7 (d * 2 ^ k))
  else pack s (BitVec.ofNat 4 (e - k)) (BitVec.ofNat 7 (d * 2 ^ k - 128))

/-- 46_add_sub.md R210 for finite operands, without loops (R212 to R215). -/
def addFiniteClosed (p q : CF) : CF :=
  let ea := (exponent p).toNat
  let eb := (exponent q).toNat
  let e := max ea eb
  let fa := (fullMantissa p).toNat / 2 ^ (e - ea)
  let fb := (fullMantissa q).toNat / 2 ^ (e - eb)
  if sign p = sign q then sumClosed (sign p) fa fb e
  else if fa = fb then 0x000#12
  else if fb < fa then differenceClosed (sign p) (fa - fb) e
  else differenceClosed (sign q) (fb - fa) e

/-- 48_divide.md R265: the real number that the integer quotient and the exponent difference stand for,
`qt * 2^(e - 7)`. -/
def fixedPointQuotient (p q : CF) : ℚ :=
  ((128 * (fullMantissa p).toNat / (fullMantissa q).toNat : Nat) : ℚ)
    * 2 ^ (max (exponent p).toNat 1) / 2 ^ (max (exponent q).toNat 1) / 2 ^ 7

end Sys2Proof.Machine
end

