-- ==== Sys2Proof/Machine/HostNotation.lean ====
section
/-! DEFINITION. The written notation for command sequences (30_encoding.md R68): what a line drives on the ports and
what it binds. Names and bindings are the host's; the core keeps none of them (log entry 14). -/

namespace Sys2Proof.Machine

/-- Why a line spells no command. -/
inductive NotationError where
  /-- A name that no earlier line bound. -/
  | unboundName (n : Nat)
  /-- A 32-bit or decimal literal in an operation other than FROMFP32. -/
  | wideLiteral
deriving DecidableEq, Repr

/-- The host's bindings, newest first. -/
abbrev Bindings := List (Nat × Word)

/-- Whether `num / den` is at least `2^k`. -/
def atLeastPow2 (num den : Nat) (k : Int) : Bool :=
  decide (den * 2 ^ k.toNat ≤ num * 2 ^ (-k).toNat)

/-- The exponent of the native float nearest to `num / den`: its floor of log2, but at least -126. -/
def nativeScale (num den : Nat) : Int :=
  let k := (num.log2 : Int) - (den.log2 : Int)
  max (if atLeastPow2 num den k then k else k - 1) (-126)

/-- The nearest integer to `n / d`, a tie going to the even one. -/
def nearestQuotient (n d : Nat) : Nat :=
  let q := n / d
  let r := n % d
  if d < 2 * r ∨ (2 * r = d ∧ q % 2 = 1) then q + 1 else q

/-- `#f:<decimal>` of R68: "the native float nearest to the decimal" `num / den`. R68 says "nearest" only; PRESUMED
(log entry 14), as the usual rounding has it: a tie goes to the even word, a decimal that rounds beyond the native range is
an Infinity, and a decimal that is or rounds to zero keeps its written sign (`-0` is `0x80000000`, though both zero words
are equally near). -/
def nearestFp32 (negative : Bool) (num den : Nat) : Word :=
  let k := nativeScale num den
  let q := nearestQuotient (num * 2 ^ (23 - k).toNat) (den * 2 ^ (k - 23).toNat)
  let word := if num = 0 then 0 else min ((k + 126).toNat * 2 ^ 23 + q) 0x7F800000
  BitVec.ofBool negative ++ BitVec.ofNat 31 word

/-- The port word a source stands for; `wide` says whether the operation is FROMFP32. -/
def sourceWord (cfg : Config) (env : Bindings) (wide : Bool) : Source → Except NotationError Word
  | .name n =>
      match env.lookup n with
      | some w => .ok w
      | none => .error (.unboundName n)
  | .pattern v => .ok (v.setWidth 32)
  | .word v => if wide then .ok v else .error .wideLiteral
  | .decimal negative digits places =>
      if wide then .ok (nearestFp32 negative digits (10 ^ places)) else .error .wideLiteral
  | .constant c => .ok ((constantPattern cfg c).setWidth 32)

/-- The command of a one-operand mnemonic; the unused port is 0, as "the encodings in this spec use" (R68). -/
def unaryCommand : UnaryOp → Word → Instr
  | .classify, va => .classify va 0#32
  | .neg, va => .neg va 0#32
  | .abs, va => .abs va 0#32
  | .tofp32, va => .tofp32 va 0#32
  | .fromfp32, va => .fromfp32 va 0#32

/-- The command of a two-operand mnemonic. -/
def binaryCommand : BinaryOp → Word → Word → Instr
  | .eq, va, vb => .eq va vb
  | .gt, va, vb => .gt va vb
  | .lt, va, vb => .lt va vb
  | .add, va, vb => .add va vb
  | .sub, va, vb => .sub va vb
  | .mul, va, vb => .mul va vb
  | .div, va, vb => .div va vb

/-- The command a line drives on the ports. -/
def lineCommand (cfg : Config) (env : Bindings) : Line → Except NotationError Instr
  | .unary op _ va =>
      match sourceWord cfg env (op == .fromfp32) va with
      | .error x => .error x
      | .ok wa => .ok (unaryCommand op wa)
  | .binary op _ va vb =>
      match sourceWord cfg env false va, sourceWord cfg env false vb with
      | .ok wa, .ok wb => .ok (binaryCommand op wa wb)
      | .error x, _ => .error x
      | .ok _, .error x => .error x

/-- The name a line binds. -/
def lineTarget : Line → Nat
  | .unary _ vd _ => vd
  | .binary _ vd _ _ => vd

/-- R68: drive the ports with the line's command, evaluate, and bind `vd` to `y`. -/
def runLine (l : Line) (env : Bindings) (s : State) :
    Except NotationError (Host.Outcome (Bindings × State) Fault Refusal) :=
  match lineCommand s.cfg env l with
  | .error x => .error x
  | .ok i =>
      match step (s.present (encode i)) with
      | .next t => .ok (.next ((lineTarget l, t.y) :: env, t))
      | .fault f => .ok (.fault f)
      | .refused r => .ok (.refused r)

/-- A straight-line sequence: its lines one after another (R68: no branch, label or loop). -/
def runLines : List Line → Bindings → State → Except NotationError (Host.Outcome (Bindings × State) Fault Refusal)
  | [], env, s => .ok (.next (env, s))
  | l :: rest, env, s =>
      match runLine l env s with
      | .error x => .error x
      | .ok (.next (env', s')) => runLines rest env' s'
      | .ok (.fault f) => .ok (.fault f)
      | .ok (.refused r) => .ok (.refused r)

end Sys2Proof.Machine
end

