-- ==== Sys2Proof/Safety.lean ====
section
/-! DEFINITION. The terms claims are stated in: a command that completes, settled outputs, well-formed outputs, the
invariant every step keeps. -/

namespace Sys2Proof.Machine

/-- The command completes: a next state with these outputs and everything else as it was. One proposition says the
result and the frame. -/
def Delivers (i : Instr) (s : State) (y : Word) (err : Bool) : Prop :=
  exec i s = .next { s with y := y, err := err }

/-- Completion in result format CF (30_encoding.md R63): `y[31:12] = 0`, `err = 0`. -/
def DeliversCF (i : Instr) (s : State) (r : CF) : Prop := Delivers i s (0#20 ++ r) false

/-- Completion in result format BOOL (30_encoding.md R64). -/
def DeliversBool (i : Instr) (s : State) (truth : Prop) : Prop :=
  (truth → Delivers i s 1#32 false) ∧ (¬ truth → Delivers i s 0#32 false)

/-- A safe step: it answers a next state; nothing aborts and nothing is refused (60_exceptions.md R302). -/
def SafeStep (s : State) : Prop := ∃ t, step s = .next t

/-- The outputs are the function of the inputs that the rules give (10_state.md R32): evaluating again changes
nothing. -/
def Settled (s : State) : Prop := step s = .next s

/-- The outputs have the result format of the command on the ports (30_encoding.md R63 to R67). -/
def OutputsFormatted (s : State) : Prop :=
  match s.command with
  | .classify a _ => s.err = false ∧ cfOperand s.y = cfOperand a
  | .eq _ _ => s.err = false ∧ s.y.extractLsb' 1 31 = 0#31
  | .gt _ _ => s.err = false ∧ s.y.extractLsb' 1 31 = 0#31
  | .lt _ _ => s.err = false ∧ s.y.extractLsb' 1 31 = 0#31
  | .neg _ _ => s.err = false ∧ s.y.extractLsb' 12 20 = 0#20
  | .abs _ _ => s.err = false ∧ s.y.extractLsb' 12 20 = 0#20
  | .tofp32 _ _ => s.err = false
  | .fromfp32 _ _ => s.err = false ∧ s.y.extractLsb' 12 20 = 0#20
  | .add _ _ => s.err = false ∧ s.y.extractLsb' 12 20 = 0#20
  | .sub _ _ => s.err = false ∧ s.y.extractLsb' 12 20 = 0#20
  | .mul _ _ => s.err = false ∧ s.y.extractLsb' 12 20 = 0#20
  | .div _ _ => s.err = false ∧ s.y.extractLsb' 12 20 = 0#20
  | .reservedC _ _ => s.err = true ∧ s.y = 0#32
  | .reservedD _ _ => s.err = true ∧ s.y = 0#32
  | .reservedE _ _ => s.err = true ∧ s.y = 0#32
  | .reservedF _ _ => s.err = true ∧ s.y = 0#32

/-- The commands that may deliver only the one NaN `P_NAN12` (43_unary.md R162). -/
def deliversOnlyNan12 : Instr → Bool
  | .fromfp32 _ _ => true
  | .add _ _ => true
  | .sub _ _ => true
  | .mul _ _ => true
  | .div _ _ => true
  | .classify _ _ => false
  | .eq _ _ => false
  | .gt _ _ => false
  | .lt _ _ => false
  | .neg _ _ => false
  | .abs _ _ => false
  | .tofp32 _ _ => false
  | .reservedC _ _ => false
  | .reservedD _ _ => false
  | .reservedE _ _ => false
  | .reservedF _ _ => false

/-- The invariant: legal parameters, outputs in the format of the command on the ports, and no NaN but `P_NAN12`
from a command other than NEG and ABS. -/
structure Inv (s : State) : Prop where
  legal : s.cfg.legal = true
  formatted : OutputsFormatted s
  oneNan : deliversOnlyNan12 s.command = true → isNan (cfOperand s.y) = true → cfOperand s.y = s.cfg.nan12

end Sys2Proof.Machine
end

