-- ==== Sys2Proof/Certificates/Slice0/Obligations.lean ====
section
/-! DEFINITION. The statements about the core, file by file of spec/. In every statement `a` and `b` are the port words
(30_encoding.md R60), `cfOperand a` and `cfOperand b` the CompactFloat operands `p` and `q` of the rules, and `s` any
state, whatever its parameters and outputs. `Delivers`, `DeliversCF` and `DeliversBool` (Safety.lean) say that `exec`
answers a next state that has the outputs named and is otherwise `s`: result, completion and frame in one. -/

open Sys2Proof Sys2Proof.Machine

/-! ### Commands, decoding, the step -/

/-- 00_scope.md R14, 30_encoding.md R61: a step evaluates the command on the ports. Where the ports hold the encoding of
`i`, the step is `exec i`. The other two clauses are the model's choice, no rule of the spec: that the host presents one
command and the very next step evaluates it (log entry 6, DESIGN CHOICE), and that `withFetchWord` takes no bit from its
count of bits (log entry 11, DESIGN CHOICE). -/
def Obligations.StepRunsPresentedCommand : Prop :=
  (∀ (s : State) (i : Instr), s.op ++ s.a ++ s.b = encode i → step s = exec i s) ∧
  (∀ (s : State) (i : Instr), step (s.present (encode i)) = exec i (s.present (encode i))) ∧
  ∀ (s : State) (i : Instr) (nbits : Nat),
    step (s.withFetchWord nbits (encode i).toNat) = exec i (s.present (encode i))

/-- 30_encoding.md R60, R61: command words written out in 95_test_vectors.md decode to the commands they stand for. -/
def Obligations.SampleCommandWordsDecode : Prop :=
  decode 0x0_00000001_00000000#68 = .classify 0x00000001#32 0x00000000#32 ∧
  decode 0x1_FFFFF000_00000800#68 = .eq 0xFFFFF000#32 0x00000800#32 ∧
  decode 0x2_00001400_7FFFF380#68 = .gt 0x00001400#32 0x7FFFF380#32 ∧
  decode 0x4_FFFFF051_DEADBEEF#68 = .neg 0xFFFFF051#32 0xDEADBEEF#32 ∧
  decode 0x6_FFFFF77F_12345678#68 = .tofp32 0xFFFFF77F#32 0x12345678#32 ∧
  decode 0x7_3F800000_FFFFFFFF#68 = .fromfp32 0x3F800000#32 0xFFFFFFFF#32 ∧
  decode 0x8_00000051_00000020#68 = .add 0x00000051#32 0x00000020#32 ∧
  decode 0xA_12345300_80000300#68 = .mul 0x12345300#32 0x80000300#32 ∧
  decode 0xB_00000380_00000280#68 = .div 0x00000380#32 0x00000280#32 ∧
  decode 0xF_FFFFFFFF_FFFFFFFF#68 = .reservedF 0xFFFFFFFF#32 0xFFFFFFFF#32

/-- 30_encoding.md R60, R61: encoding loses no bit, and every one of the `2^68` words is the encoding of a command. -/
def Obligations.DecodeEncodeRoundTrip : Prop :=
  (∀ i : Instr, decode (encode i) = i) ∧ ∀ w : CommandWord, encode (decode w) = w

/-- 30_encoding.md R61: every command word selects exactly one row of the operation table, and decoding gives that
row's operation with the words of the two operand ports. -/
def Obligations.EveryCommandSelectsOneRow : Prop :=
  ∀ w : CommandWord, ∃ r ∈ opcodeTable, r.selects w = true ∧
    (∀ r' ∈ opcodeTable, r'.selects w = true → r' = r) ∧
    (decode w).mnemonic = r.mnemonic ∧
    (decode w).portA = w.extractLsb' 32 32 ∧ (decode w).portB = w.extractLsb' 0 32

/-- The state after reset meets the invariant and is settled (10_state.md R32: the outputs are the function of the
inputs). The inputs after reset are the model's choice (log entry 2), the parameters the defaults of R7 (log entry 3). -/
def Obligations.ResetMeetsInvariant : Prop := Inv State.reset ∧ Settled State.reset

/-- 30_encoding.md R63 to R67, 43_unary.md R162: from every state with legal parameters, a step leaves the parameters
legal, the outputs in the result format of the command on the ports, and no NaN but `P_NAN12` from FROMFP32, ADD, SUB,
MUL or DIV. -/
def Obligations.StepKeepsInvariant : Prop :=
  (∀ s t : State, Inv s → step s = .next t → Inv t) ∧
  ∀ s t : State, s.cfg.legal = true → step s = .next t → Inv t

/-- 20_memory.md R44, 10_state.md R32: after one evaluation the outputs are settled, so that presenting the same
command again changes nothing. -/
def Obligations.StepSettlesOutputs : Prop := ∀ s t : State, step s = .next t → Settled t

/-- 60_exceptions.md R302: no command aborts, so the range error of the builders is never answered. That a reserved code
too answers a next state, no refusal, is the model's reading of 30_encoding.md R66 ("a model treats a reserved code as a
*refusal*") by U8 of 93_implementation_defined.md: log entry 5, DEDUCED. -/
def Obligations.StepNeverStops : Prop := ∀ s : State, SafeStep s

/-- 10_state.md R20, 20_memory.md R45: the outputs depend on `op`, `a`, `b` and the parameters only, never on what was
on the outputs before; and a step changes nothing but the outputs. (That a reserved code answers a next state is the
model's reading: log entry 5, DEDUCED.) -/
def Obligations.OutputsDependOnCommandAlone : Prop :=
  ∀ s s' : State, s'.cfg = s.cfg → s'.op = s.op → s'.a = s.a → s'.b = s.b →
    ∃ y err, step s = .next { s with y := y, err := err } ∧ step s' = .next { s' with y := y, err := err }

/-- 60_exceptions.md R303: `err` is 1 exactly on the reserved codes, together with `y = 0`, and nothing is recorded. That
a reserved code answers a next state at all, no refusal, is the model's reading of 30_encoding.md R66: log entry 5,
DEDUCED. -/
def Obligations.ErrExactlyOnReservedCodes : Prop :=
  ∀ s : State, ∃ t, step s = .next t ∧ t = { s with y := t.y, err := t.err } ∧
    (t.err = true ↔ 12 ≤ s.op.toNat) ∧ (t.err = true → t.y = 0#32)

/-- A reserved code drives `y = 0` and `err = 1` (30_encoding.md R66, R67), whatever the operands, and changes nothing
(R66). That this outcome is a next state, where R66 also says "refusal", is the model's reading by U8 of
93_implementation_defined.md: log entry 5, DEDUCED. -/
def Obligations.ReservedCodesAnswerError : Prop :=
  ∀ (a b : Word) (s : State),
    Delivers (.reservedC a b) s 0#32 true ∧ Delivers (.reservedD a b) s 0#32 true ∧
    Delivers (.reservedE a b) s 0#32 true ∧ Delivers (.reservedF a b) s 0#32 true

/-- 30_encoding.md R66: for the codes `0x0` to `0xB` every operand pair is legal and gives `err = 0`. -/
def Obligations.DefinedCommandsComplete : Prop :=
  ∀ (i : Instr) (s : State), i.code.toNat < 12 → ∃ y, Delivers i s y false

/-! ### Classifier -/

/-- 41_classifier.md R124 (with R110 to R122): all 32 bits of the CLASS word, in terms of the bits of port `a`. -/
def Obligations.ClassWordLayout : Prop :=
  ∀ (a b : Word) (s : State), ∃ y : Word, Delivers (.classify a b) s y false ∧
    y.extractLsb' 0 7 = a.extractLsb' 0 7 ∧
    y.extractLsb' 7 4 = a.extractLsb' 7 4 ∧
    y.extractLsb' 11 1 = a.extractLsb' 11 1 ∧
    y.extractLsb' 12 8 = (if a.extractLsb' 7 4 = 0#4 then 0#1 else 1#1) ++ a.extractLsb' 0 7 ∧
    (y.extractLsb' 20 5).toInt =
      (if a.extractLsb' 7 4 = 0#4 then -6 else ((a.extractLsb' 7 4).toNat : Int) - 7) ∧
    (y.getLsbD 25 = true ↔ a.extractLsb' 7 4 = 15#4 ∧ a.extractLsb' 0 7 ≠ 0#7) ∧
    (y.getLsbD 26 = true ↔ a.extractLsb' 0 12 = 0x780#12) ∧
    (y.getLsbD 27 = true ↔ a.extractLsb' 0 12 = 0xF80#12) ∧
    (y.getLsbD 28 = true ↔ a.extractLsb' 7 4 = 0#4) ∧
    (y.getLsbD 29 = true ↔ a.extractLsb' 0 12 = 0x000#12) ∧
    (y.getLsbD 30 = true ↔ a.extractLsb' 0 12 = 0x800#12) ∧
    (y.getLsbD 31 = true ↔ a.extractLsb' 0 11 = 0#11)

/-- 41_classifier.md R125: the relations among the predicates. -/
def Obligations.PredicateRelations : Prop :=
  (∀ x : CF,
    (isZero x = true → isDenormalized x = true) ∧
    (isZero x = (isPositiveZero x || isNegativeZero x)) ∧
    ¬(isPositiveZero x = true ∧ isNegativeZero x = true) ∧
    [isNan x, isPositiveInfinity x, isNegativeInfinity x, isDenormalized x].Pairwise (fun u v => (u && v) = false) ∧
    (isNan x = false ∧ isPositiveInfinity x = false ∧ isNegativeInfinity x = false ∧ isDenormalized x = false ↔
      1 ≤ (exponent x).toNat ∧ (exponent x).toNat ≤ 14)) ∧
  ∀ cfg : Config, cfg.legal = true → isNan cfg.nan12 = true

/-- 41_classifier.md R126: the seven predicates by pattern range. -/
def Obligations.PredicateTable : Prop :=
  ∀ x : CF,
    (isNan x = true ↔ (0x781 ≤ x.toNat ∧ x.toNat ≤ 0x7FF) ∨ (0xF81 ≤ x.toNat ∧ x.toNat ≤ 0xFFF)) ∧
    (isPositiveInfinity x = true ↔ x.toNat = 0x780) ∧
    (isNegativeInfinity x = true ↔ x.toNat = 0xF80) ∧
    (isDenormalized x = true ↔ x.toNat ≤ 0x07F ∨ (0x800 ≤ x.toNat ∧ x.toNat ≤ 0x87F)) ∧
    (isPositiveZero x = true ↔ x.toNat = 0x000) ∧
    (isNegativeZero x = true ↔ x.toNat = 0x800) ∧
    (isZero x = true ↔ x.toNat = 0x000 ∨ x.toNat = 0x800)

/-- 10_state.md R29: the census of the 4096 patterns, every finite value a multiple of `2^-13`, and the positive finite
patterns in strictly increasing value order. -/
def Obligations.PatternsAndValues : Prop :=
  (List.range 4096).countP (fun n => isZero (BitVec.ofNat 12 n)) = 2 ∧
  (List.range 4096).countP (fun n => isDenormalized (BitVec.ofNat 12 n) && !isZero (BitVec.ofNat 12 n)) = 254 ∧
  (List.range 4096).countP (fun n => isNormalized (BitVec.ofNat 12 n)) = 3584 ∧
  (List.range 4096).countP (fun n => isInfinity (BitVec.ofNat 12 n)) = 2 ∧
  (List.range 4096).countP (fun n => isNan (BitVec.ofNat 12 n)) = 254 ∧
  (List.range 4096).countP (fun n => isFinite (BitVec.ofNat 12 n)) = 3840 ∧
  (∀ x : CF, isFinite x = true → ∃ k : ℤ, value x = k / 2 ^ 13) ∧
  ∀ x z : CF, 0x001 ≤ x.toNat → x.toNat < z.toNat → z.toNat ≤ 0x77F → value x < value z

/-- 10_state.md R27: the patterns and values of the named constants, and the two functions `inf` and `zero`. -/
def Obligations.NamedConstants : Prop :=
  ∀ cfg : Config,
    constantPattern cfg .posZero = 0x000#12 ∧ constantPattern cfg .negZero = 0x800#12 ∧
    constantPattern cfg .minPositive = 0x001#12 ∧ constantPattern cfg .maxPositive = 0x77F#12 ∧
    constantPattern cfg .posInfinity = 0x780#12 ∧ constantPattern cfg .negInfinity = 0xF80#12 ∧
    constantPattern cfg .nan = cfg.nan12 ∧ constantPattern Config.defaults .nan = 0x7C0#12 ∧
    (∀ s : BitVec 1, inf s = s ++ 0xF#4 ++ 0#7 ∧ zero s = s ++ 0#4 ++ 0#7) ∧
    value 0x001#12 = 1 / 2 ^ 13 ∧ value 0x77F#12 = 255 ∧ value 0x000#12 = 0 ∧ value 0x800#12 = 0

/-! ### Comparator -/

/-- 42_compare.md R140: EQ is true for identical patterns and for two zeros, and never with a NaN. -/
def Obligations.EqResult : Prop :=
  ∀ (a b : Word) (s : State), DeliversBool (.eq a b) s
    (isNan (cfOperand a) = false ∧ isNan (cfOperand b) = false ∧
      (a.extractLsb' 0 12 = b.extractLsb' 0 12 ∨ (a.extractLsb' 0 11 = 0#11 ∧ b.extractLsb' 0 11 = 0#11)))

/-- GT (42_compare.md R141) in the hardware form that R146 derives from R145 and R114: by sign where the signs differ (two zeros excepted), otherwise by
the low eleven bits as unsigned numbers, one way for positive and the other for negative operands. -/
def Obligations.GtResult : Prop :=
  ∀ (a b : Word) (s : State), DeliversBool (.gt a b) s
    (isNan (cfOperand a) = false ∧ isNan (cfOperand b) = false ∧
      (if a.extractLsb' 11 1 = b.extractLsb' 11 1 then
        (if a.extractLsb' 11 1 = 0#1 then (b.extractLsb' 0 11).toNat < (a.extractLsb' 0 11).toNat
          else (a.extractLsb' 0 11).toNat < (b.extractLsb' 0 11).toNat)
      else a.extractLsb' 11 1 = 0#1 ∧ ¬(a.extractLsb' 0 11 = 0#11 ∧ b.extractLsb' 0 11 = 0#11)))

/-- 42_compare.md R142: LT is GT with the operands exchanged, and it completes with that truth value; where no operand
is a NaN it is also the complement of GT and EQ. -/
def Obligations.LtIsGtExchanged : Prop :=
  ∀ (a b : Word) (s : State), exec (.lt a b) s = exec (.gt b a) s ∧
    DeliversBool (.lt a b) s (greaterThan (cfOperand b) (cfOperand a) = true) ∧
    (isNan (cfOperand a) = false → isNan (cfOperand b) = false →
      DeliversBool (.lt a b) s
        (¬(greaterThan (cfOperand a) (cfOperand b) = true ∨ equals (cfOperand a) (cfOperand b) = true)))

/-- 42_compare.md R146: for operands that are no NaN (NanIsUnordered is about those that are) the key comparison is an unsigned comparison of the low eleven
bits, and GT, EQ and LT order the real values, with the infinities at the ends. -/
def Obligations.ComparatorOrdersValues : Prop :=
  ∀ (a b : Word) (s : State), isNan (cfOperand a) = false → isNan (cfOperand b) = false →
    (lexLess (key (cfOperand a)) (key (cfOperand b)) = true ↔
      (a.extractLsb' 0 11).toNat < (b.extractLsb' 0 11).toNat) ∧
    DeliversBool (.gt a b) s (extendedValue (cfOperand b) < extendedValue (cfOperand a)) ∧
    DeliversBool (.eq a b) s (extendedValue (cfOperand a) = extendedValue (cfOperand b)) ∧
    DeliversBool (.lt a b) s (extendedValue (cfOperand a) < extendedValue (cfOperand b))

/-- 42_compare.md R147: exactly one of EQ, GT, LT holds; "GT or EQ" is a total pre-order; the only two different
patterns that are equal are the two zeros. -/
def Obligations.ComparatorTrichotomy : Prop :=
  (∀ p q : CF, isNan p = false → isNan q = false →
    ([equals p q, greaterThan p q, lessThan p q].countP (fun t => t) = 1) ∧
    (equals p q = true → p ≠ q → isZero p = true ∧ isZero q = true)) ∧
  (∀ p q : CF, isNan p = false → isNan q = false →
    (greaterThan p q || equals p q) = true ∨ (greaterThan q p || equals q p) = true) ∧
  ∀ p q r : CF, isNan p = false → isNan q = false → isNan r = false →
    (greaterThan p q || equals p q) = true → (greaterThan q r || equals q r) = true →
    (greaterThan p r || equals p r) = true

/-- 42_compare.md R144: with a NaN in either position EQ, GT and LT are all false. -/
def Obligations.NanIsUnordered : Prop :=
  ∀ (a b : Word) (s : State), isNan (cfOperand a) = true ∨ isNan (cfOperand b) = true →
    Delivers (.eq a b) s 0#32 false ∧ Delivers (.gt a b) s 0#32 false ∧ Delivers (.lt a b) s 0#32 false

/-! ### Sign unit -/

/-- 43_unary.md R160: NEG flips bit 11 of the operand and leaves the other eleven bits, for every pattern. -/
def Obligations.NegResult : Prop :=
  ∀ (a b : Word) (s : State), DeliversCF (.neg a b) s (~~~(a.extractLsb' 11 1) ++ a.extractLsb' 0 11)

/-- 43_unary.md R161: ABS clears bit 11, but returns a NaN unchanged. -/
def Obligations.AbsResult : Prop :=
  ∀ (a b : Word) (s : State),
    (isNan (cfOperand a) = true → DeliversCF (.abs a b) s (a.extractLsb' 0 12)) ∧
    (isNan (cfOperand a) = false → DeliversCF (.abs a b) s (0#1 ++ a.extractLsb' 0 11))

/-! ### Conversions -/

/-- 44_to_fp32.md R179 (and R171 to R173): the word TOFP32 delivers, in closed form. -/
def Obligations.ToFp32Result : Prop :=
  ∀ (a b : Word) (s : State), Delivers (.tofp32 a b) s (toFp32Closed s.cfg (cfOperand a)) false

/-- 44_to_fp32.md R181: TOFP32 is exact on every finite pattern, keeps the sign, and makes every nonzero denormal a
native normalized number (raw exponents 114 to 120). -/
def Obligations.ToFp32Exact : Prop :=
  ∀ (a b : Word) (s : State), isFinite (cfOperand a) = true →
    ∃ y, Delivers (.tofp32 a b) s y false ∧ nativeValue y = value (cfOperand a) ∧
      fSign y = sign (cfOperand a) ∧
      (exponent (cfOperand a) = 0#4 → mantissa (cfOperand a) ≠ 0#7 →
        114 ≤ (fExponent y).toNat ∧ (fExponent y).toNat ≤ 120)

/-- 44_to_fp32.md R180: what the builders are given for a finite nonzero operand is in range, so TOFP32 is total. -/
def Obligations.BuildersStayInRange : Prop :=
  (∀ x : CF, isFinite x = true → isZero x = false →
    -13 ≤ (fp32Parts x).e ∧ (fp32Parts x).e ≤ 7 ∧ (fp32Parts x).m < 2 ^ 23) ∧
  ∀ (a b : Word) (s : State), ∃ y, Delivers (.tofp32 a b) s y false

/-- 40_fp32_fields.md R96 to R98: each builder replaces its own field and no other, and fails with a range error
carrying the value exactly outside its range. -/
def Obligations.BuilderRangeErrors : Prop :=
  (∀ (w : Word) (s : BitVec 1),
    fSign (withSign w s) = s ∧ fExponent (withSign w s) = fExponent w ∧ fMantissa (withSign w s) = fMantissa w) ∧
  (∀ (w : Word) (e : Int), e < -126 ∨ 127 < e → withUnbiasedExponent w e = .error (.rangeError e)) ∧
  (∀ (w : Word) (e : Int), -126 ≤ e → e ≤ 127 → ∃ w', withUnbiasedExponent w e = .ok w' ∧
    fSign w' = fSign w ∧ ((fExponent w').toNat : Int) = e + 127 ∧ fMantissa w' = fMantissa w) ∧
  (∀ (w : Word) (m : Nat), 2 ^ 23 ≤ m → withMantissa w m = .error (.rangeError m)) ∧
  ∀ (w : Word) (m : Nat), m < 2 ^ 23 → ∃ w', withMantissa w m = .ok w' ∧
    fSign w' = fSign w ∧ fExponent w' = fExponent w ∧ (fMantissa w').toNat = m

/-- 45_from_fp32.md R200: the pattern FROMFP32 delivers for any of the `2^32` words, in closed form. -/
def Obligations.FromFp32Result : Prop :=
  ∀ (a b : Word) (s : State), DeliversCF (.fromfp32 a b) s (fromFp32Closed s.cfg a)

/-- 45_from_fp32.md R201: native zeros and subnormals give the signed zero. -/
def Obligations.NativeSubnormalsGiveZero : Prop :=
  ∀ (a b : Word) (s : State), fExponent a = 0#8 → DeliversCF (.fromfp32 a b) s (fSign a ++ 0#11)

/-- 45_from_fp32.md R202, R203: FROMFP32 of a native number is that number truncated toward zero and saturated. -/
def Obligations.FromFp32Truncates : Prop :=
  ∀ (a b : Word) (s : State), fExponent a ≠ 255#8 →
    ∃ r, DeliversCF (.fromfp32 a b) s r ∧ TruncatesTo (fSign a) (nativeMagnitude a) r

/-- 45_from_fp32.md R202: FROMFP32 is monotonic in the operand, over all native words that are no NaN, in the order of
the values with the infinities at the ends; the result is no NaN. On non-negative words, where the order of the words is
the order of the values, the patterns are in order too. -/
def Obligations.FromFp32Monotonic : Prop :=
  (∀ (a a' b : Word) (s : State), isNativeNan a = false → isNativeNan a' = false →
    nativeExtendedValue a ≤ nativeExtendedValue a' →
    ∃ r r' : CF, DeliversCF (.fromfp32 a b) s r ∧ DeliversCF (.fromfp32 a' b) s r' ∧
      isNan r = false ∧ isNan r' = false ∧ extendedValue r ≤ extendedValue r') ∧
  ∀ (a a' b : Word) (s : State), a.toNat ≤ a'.toNat → a'.toNat ≤ 0x7F800000 →
    ∃ r r' : CF, DeliversCF (.fromfp32 a b) s r ∧ DeliversCF (.fromfp32 a' b) s r' ∧ r.toNat ≤ r'.toNat

/-- 45_from_fp32.md R204: converting to the native float and back gives the pattern again for every pattern that is no
NaN, and `P_NAN12` for a NaN (with legal parameters). -/
def Obligations.ConversionRoundTrip : Prop :=
  (∀ (a b b' : Word) (s : State), isNan (cfOperand a) = false →
    ∃ y, Delivers (.tofp32 a b) s y false ∧ DeliversCF (.fromfp32 y b') s (cfOperand a)) ∧
  ∀ (a b b' : Word) (s : State), isNan (cfOperand a) = true → s.cfg.legal = true →
    ∃ y, Delivers (.tofp32 a b) s y false ∧ DeliversCF (.fromfp32 y b') s s.cfg.nan12

/-! ### Addition and subtraction -/

/-- 46_add_sub.md R211: the special values of ADD. -/
def Obligations.AddSpecials : Prop :=
  ∀ (a b : Word) (s : State),
    (isNan (cfOperand a) = true ∨ isNan (cfOperand b) = true → DeliversCF (.add a b) s s.cfg.nan12) ∧
    (isInfinity (cfOperand a) = true → isInfinity (cfOperand b) = true →
      sign (cfOperand a) ≠ sign (cfOperand b) → DeliversCF (.add a b) s s.cfg.nan12) ∧
    (isInfinity (cfOperand a) = true → isInfinity (cfOperand b) = true →
      sign (cfOperand a) = sign (cfOperand b) → DeliversCF (.add a b) s (cfOperand a)) ∧
    (isInfinity (cfOperand a) = true → isFinite (cfOperand b) = true → DeliversCF (.add a b) s (cfOperand a)) ∧
    (isFinite (cfOperand a) = true → isInfinity (cfOperand b) = true → DeliversCF (.add a b) s (cfOperand b))

/-- 46_add_sub.md R210, R212 to R215: the pattern ADD delivers for finite operands, in a form without loops. -/
def Obligations.AddFiniteResult : Prop :=
  ∀ (a b : Word) (s : State), isFinite (cfOperand a) = true → isFinite (cfOperand b) = true →
    DeliversCF (.add a b) s (addFiniteClosed (cfOperand a) (cfOperand b))

/-- 46_add_sub.md R218, 47_multiply.md R250: ADD and MUL are commutative bit for bit, special values included. -/
def Obligations.AddAndMulCommute : Prop :=
  ∀ (a b : Word) (s : State),
    exec (.add a b) s = exec (.add b a) s ∧ exec (.mul a b) s = exec (.mul b a) s

/-- 46_add_sub.md R218: adding a zero of either sign gives a finite nonzero operand back; zero plus zero is `-0` only
for two negative zeros. -/
def Obligations.AddZeroIdentity : Prop :=
  (∀ (a b : Word) (s : State), isFinite (cfOperand a) = true → isZero (cfOperand a) = false →
    isZero (cfOperand b) = true →
    DeliversCF (.add a b) s (cfOperand a) ∧ DeliversCF (.add b a) s (cfOperand a)) ∧
  ∀ (a b : Word) (s : State), isZero (cfOperand a) = true → isZero (cfOperand b) = true →
    DeliversCF (.add a b) s (zero (sign (cfOperand a) &&& sign (cfOperand b)))

/-- 46_add_sub.md R215: a tie of the aligned mantissas happens exactly for equal exponent and mantissa fields; with
different signs the result is then `+ZERO`; so `x - x` is `+ZERO` for every finite `x`. -/
def Obligations.CancellationGivesPositiveZero : Prop :=
  (∀ p q : CF, isFinite p = true → isFinite q = true →
    ((align p q).fa = (align p q).fb ↔ exponent p = exponent q ∧ mantissa p = mantissa q)) ∧
  (∀ (a b : Word) (s : State), isFinite (cfOperand a) = true → sign (cfOperand a) ≠ sign (cfOperand b) →
    exponent (cfOperand a) = exponent (cfOperand b) → mantissa (cfOperand a) = mantissa (cfOperand b) →
    DeliversCF (.add a b) s 0x000#12) ∧
  ∀ (a b : Word) (s : State), isFinite (cfOperand a) = true → cfOperand a = cfOperand b →
    DeliversCF (.sub a b) s 0x000#12

/-- 46_add_sub.md R219: the carry of two denormals of one sign is lost: exponent field 0 and mantissa sum less 128,
where the exact sum would have exponent field 1. -/
def Obligations.DenormalCarryLost : Prop :=
  ∀ (a b : Word) (s : State), exponent (cfOperand a) = 0#4 → exponent (cfOperand b) = 0#4 →
    sign (cfOperand a) = sign (cfOperand b) →
    128 ≤ (mantissa (cfOperand a)).toNat + (mantissa (cfOperand b)).toNat →
    let m := (mantissa (cfOperand a)).toNat + (mantissa (cfOperand b)).toNat - 128
    DeliversCF (.add a b) s (pack (sign (cfOperand a)) 0#4 (BitVec.ofNat 7 m)) ∧
    value (pack (sign (cfOperand a)) 1#4 (BitVec.ofNat 7 m)) = value (cfOperand a) + value (cfOperand b)

/-- 46_add_sub.md R218: two normalized operands of one sign give the exact sum truncated toward zero, saturated. -/
def Obligations.AddSameSignTruncates : Prop :=
  ∀ (a b : Word) (s : State), isNormalized (cfOperand a) = true → isNormalized (cfOperand b) = true →
    sign (cfOperand a) = sign (cfOperand b) →
    ∃ r, DeliversCF (.add a b) s r ∧
      TruncatesTo (sign (cfOperand a)) (magnitude (cfOperand a) + magnitude (cfOperand b)) r

/-- 46_add_sub.md R218, R221: finite operands of different signs never overflow and never yield a NaN, and with equal
exponent fields (two denormals among them) the result is the exact sum. -/
def Obligations.AddDifferentSigns : Prop :=
  ∀ (a b : Word) (s : State), isFinite (cfOperand a) = true → isFinite (cfOperand b) = true →
    sign (cfOperand a) ≠ sign (cfOperand b) →
    ∃ r, DeliversCF (.add a b) s r ∧ isFinite r = true ∧
      (exponent (cfOperand a) = exponent (cfOperand b) → value r = value (cfOperand a) + value (cfOperand b))

/-- 46_add_sub.md R216: after the carry loop the second loop of step 3 is never entered. -/
def Obligations.SecondAddLoopIsDead : Prop :=
  ∀ p q : CF, isFinite p = true → isFinite q = true → lostLeadingBit (carried (align p q)) = false

/-- 46_add_sub.md R217: SUB is ADD with bit 11 of the second operand flipped, NaN included, and it completes. -/
def Obligations.SubIsAddOfNegation : Prop :=
  ∀ (a b : Word) (s : State), exec (.sub a b) s = exec (.add a (b ^^^ 0x800#32)) s ∧
    ∃ r, DeliversCF (.sub a b) s r

/-! ### Multiplication -/

/-- 47_multiply.md R241 to R243: NaN first, then zero (zero times Infinity included), then Infinity. -/
def Obligations.MulSpecials : Prop :=
  ∀ (a b : Word) (s : State),
    (isNan (cfOperand a) = true ∨ isNan (cfOperand b) = true → DeliversCF (.mul a b) s s.cfg.nan12) ∧
    (isNan (cfOperand a) = false → isNan (cfOperand b) = false →
      isZero (cfOperand a) = true ∨ isZero (cfOperand b) = true →
      DeliversCF (.mul a b) s (zero (sign (cfOperand a) ^^^ sign (cfOperand b)))) ∧
    (isNan (cfOperand a) = false → isNan (cfOperand b) = false →
      isZero (cfOperand a) = false → isZero (cfOperand b) = false →
      isInfinity (cfOperand a) = true ∨ isInfinity (cfOperand b) = true →
      DeliversCF (.mul a b) s (inf (sign (cfOperand a) ^^^ sign (cfOperand b))))

/-- 47_multiply.md R250: for finite operands MUL delivers the exact product truncated toward zero, saturated, with the
XOR sign. -/
def Obligations.MulTruncatesExactProduct : Prop :=
  ∀ (a b : Word) (s : State), isFinite (cfOperand a) = true → isFinite (cfOperand b) = true →
    ∃ r, DeliversCF (.mul a b) s r ∧
      TruncatesTo (sign (cfOperand a) ^^^ sign (cfOperand b))
        (magnitude (cfOperand a) * magnitude (cfOperand b)) r

/-- 47_multiply.md R250, 95_test_vectors.md Q14: 1.0 is neutral on both sides for every pattern that is no NaN, and
-1.0 negates. -/
def Obligations.MulIdentities : Prop :=
  ∀ (a b : Word) (s : State), isNan (cfOperand a) = false →
    (cfOperand b = 0x380#12 →
      DeliversCF (.mul a b) s (cfOperand a) ∧ DeliversCF (.mul b a) s (cfOperand a)) ∧
    (cfOperand b = 0xB80#12 → DeliversCF (.mul a b) s (cfOperand a ^^^ 0x800#12))

/-- 47_multiply.md R246: `finish` delivers the value `m * 2^(e - 7)` truncated toward zero and saturated, for every
mantissa of 8 to 15 bits and every exponent. -/
def Obligations.FinishTruncates : Prop :=
  ∀ (sg : BitVec 1) (m : Nat) (e : ℤ), 128 ≤ m → m < 2 ^ 15 →
    TruncatesTo sg ((m : ℚ) * (2 : ℚ) ^ (e - 7)) (finish sg m e)

/-! ### Division -/

/-- 48_divide.md R261 to R264, in the order of R269: NaN, zero divisor (0/0 by `P_ZDZ_NAN`), Infinity dividend,
Infinity divisor. -/
def Obligations.DivSpecials : Prop :=
  ∀ (a b : Word) (s : State),
    (isNan (cfOperand a) = true ∨ isNan (cfOperand b) = true → DeliversCF (.div a b) s s.cfg.nan12) ∧
    (isZero (cfOperand a) = true → isZero (cfOperand b) = true → s.cfg.zdzNan = true →
      DeliversCF (.div a b) s s.cfg.nan12) ∧
    (isZero (cfOperand a) = true → isZero (cfOperand b) = true → s.cfg.zdzNan = false →
      DeliversCF (.div a b) s (inf (sign (cfOperand a) ^^^ sign (cfOperand b)))) ∧
    (isNan (cfOperand a) = false → isZero (cfOperand a) = false → isZero (cfOperand b) = true →
      DeliversCF (.div a b) s (inf (sign (cfOperand a) ^^^ sign (cfOperand b)))) ∧
    (isInfinity (cfOperand a) = true → isInfinity (cfOperand b) = true →
      DeliversCF (.div a b) s s.cfg.nan12) ∧
    (isInfinity (cfOperand a) = true → isFinite (cfOperand b) = true → isZero (cfOperand b) = false →
      DeliversCF (.div a b) s (inf (sign (cfOperand a) ^^^ sign (cfOperand b)))) ∧
    (isFinite (cfOperand a) = true → isInfinity (cfOperand b) = true →
      DeliversCF (.div a b) s (zero (sign (cfOperand a) ^^^ sign (cfOperand b))))

/-- 48_divide.md R265 to R268: for a finite dividend and a finite nonzero divisor DIV delivers the fixed-point quotient
`qt * 2^(e - 7)`, with `qt` the integer quotient of R265, truncated toward zero and saturated, with the XOR sign. -/
def Obligations.DivTruncatesFixedPointQuotient : Prop :=
  ∀ (a b : Word) (s : State), isFinite (cfOperand a) = true → isFinite (cfOperand b) = true →
    isZero (cfOperand b) = false →
    ∃ r, DeliversCF (.div a b) s r ∧
      TruncatesTo (sign (cfOperand a) ^^^ sign (cfOperand b))
        (fixedPointQuotient (cfOperand a) (cfOperand b)) r

/-- 48_divide.md R270, first two points: the result never exceeds the exact quotient in magnitude (Infinity only from
256 on), and where the dividend's full mantissa is not the smaller it is the exact quotient truncated. -/
def Obligations.DivAgainstExactQuotient : Prop :=
  ∀ (a b : Word) (s : State), isFinite (cfOperand a) = true → isFinite (cfOperand b) = true →
    isZero (cfOperand b) = false →
    ∃ r, DeliversCF (.div a b) s r ∧
      (isFinite r = true → magnitude r * magnitude (cfOperand b) ≤ magnitude (cfOperand a)) ∧
      (isFinite r = false → 256 * magnitude (cfOperand b) ≤ magnitude (cfOperand a)) ∧
      ((fullMantissa (cfOperand b)).toNat ≤ (fullMantissa (cfOperand a)).toNat →
        TruncatesTo (sign (cfOperand a) ^^^ sign (cfOperand b))
          (magnitude (cfOperand a) / magnitude (cfOperand b)) r)

/-- 48_divide.md R272: `n / n` is 1.0 for every finite nonzero `n`, and `n / 1.0` is `n` for every finite `n`. -/
def Obligations.DivIdentities : Prop :=
  (∀ (a b : Word) (s : State), isFinite (cfOperand a) = true → isZero (cfOperand a) = false →
    cfOperand b = cfOperand a → DeliversCF (.div a b) s 0x380#12) ∧
  ∀ (a b : Word) (s : State), isFinite (cfOperand a) = true → cfOperand b = 0x380#12 →
    DeliversCF (.div a b) s (cfOperand a)

/-- 48_divide.md R266: when the integer quotient is zero, and that the result is then the signed zero. -/
def Obligations.DivQuotientZero : Prop :=
  ∀ (a b : Word) (s : State), isFinite (cfOperand a) = true → isFinite (cfOperand b) = true →
    isZero (cfOperand b) = false →
    ((rawQuotient (cfOperand a) (cfOperand b)).m = 0 ↔
      128 * (fullMantissa (cfOperand a)).toNat < (fullMantissa (cfOperand b)).toNat) ∧
    (128 * (fullMantissa (cfOperand a)).toNat < (fullMantissa (cfOperand b)).toNat ↔
      isZero (cfOperand a) = true ∨
      (exponent (cfOperand a) = 0#4 ∧ mantissa (cfOperand a) = 1#7 ∧
        isNormalized (cfOperand b) = true ∧ mantissa (cfOperand b) ≠ 0#7)) ∧
    (128 * (fullMantissa (cfOperand a)).toNat < (fullMantissa (cfOperand b)).toNat →
      DeliversCF (.div a b) s (zero (sign (cfOperand a) ^^^ sign (cfOperand b))))

/-! ### Whole-machine statements about results -/

/-- 47_multiply.md R251, 48_divide.md R271: with legal parameters, the sign of every MUL and DIV result that is no NaN
is the XOR of the operand signs, zero and Infinity included. -/
def Obligations.ProductAndQuotientSigns : Prop :=
  ∀ (a b : Word) (s : State), s.cfg.legal = true →
    (∃ r, DeliversCF (.mul a b) s r ∧
      (isNan r = false → sign r = sign (cfOperand a) ^^^ sign (cfOperand b))) ∧
    ∃ r, DeliversCF (.div a b) s r ∧
      (isNan r = false → sign r = sign (cfOperand a) ^^^ sign (cfOperand b))

/-- 95_test_vectors.md Q20 (46_add_sub.md R211, 48_divide.md R263): from operands that are no NaN, a NaN comes only from
adding opposite infinities, subtracting like infinities, dividing Infinity by Infinity, and, where `P_ZDZ_NAN` says so,
dividing zero by zero. -/
def Obligations.NanOrigins : Prop :=
  ∀ (a b : Word) (s : State), s.cfg.legal = true → isNan (cfOperand a) = false → isNan (cfOperand b) = false →
    (∃ r, DeliversCF (.add a b) s r ∧ (isNan r = true ↔
      isInfinity (cfOperand a) = true ∧ isInfinity (cfOperand b) = true ∧
        sign (cfOperand a) ≠ sign (cfOperand b))) ∧
    (∃ r, DeliversCF (.sub a b) s r ∧ (isNan r = true ↔
      isInfinity (cfOperand a) = true ∧ isInfinity (cfOperand b) = true ∧
        sign (cfOperand a) = sign (cfOperand b))) ∧
    (∃ r, DeliversCF (.mul a b) s r ∧ isNan r = false) ∧
    ∃ r, DeliversCF (.div a b) s r ∧ (isNan r = true ↔
      (isInfinity (cfOperand a) = true ∧ isInfinity (cfOperand b) = true) ∨
      (isZero (cfOperand a) = true ∧ isZero (cfOperand b) = true ∧ s.cfg.zdzNan = true))

/-- 10_state.md R26, 30_encoding.md R62: bits 31:12 of both ports are ignored by every command but FROMFP32, and
one-operand commands ignore port `b`. -/
def Obligations.IgnoredPortBits : Prop :=
  (∀ (op : BitVec 4) (a b : Word) (s : State), op ≠ 7#4 →
    exec (decodePorts op a b) s = exec (decodePorts op (a &&& 0xFFF#32) (b &&& 0xFFF#32)) s) ∧
  ∀ (a b b' : Word) (s : State),
    exec (.classify a b) s = exec (.classify a b') s ∧ exec (.neg a b) s = exec (.neg a b') s ∧
    exec (.abs a b) s = exec (.abs a b') s ∧ exec (.tofp32 a b) s = exec (.tofp32 a b') s ∧
    exec (.fromfp32 a b) s = exec (.fromfp32 a b') s

/-- 70_reset_and_hazards.md R335 (with the ranges of 10_state.md R31 for MUL): with the listed number of rounds every
loop has reached its exit condition, so its fuel never cuts it short; the dead loop of addition step 3 runs no round. -/
def Obligations.LoopsExitWithinBounds : Prop :=
  (∀ x : CF, exponent x = 0#4 → mantissa x ≠ 0#7 →
    bit23Clear (whileLoop bit23Clear Scaled.shl 7 (widen x)) = false) ∧
  (∀ v : Scaled, v.m < 2 ^ 24 → belowBoundary (whileLoop belowBoundary Scaled.shr 24 v) = false) ∧
  (∀ p q : CF, isFinite p = true → isFinite q = true → above8 (carried (align p q)) = false) ∧
  (∀ p q : CF, isFinite p = true → isFinite q = true →
    lostLeadingBit (carried (align p q)) = false ∧
    whileLoop lostLeadingBit Scaled.shl (carried (align p q)).e.toNat (carried (align p q)) = carried (align p q)) ∧
  (∀ p q : CF, isFinite p = true → isFinite q = true →
    aboveDenormalFloor (whileLoop aboveDenormalFloor Scaled.shl 13
      ⟨(difference (sign p) (sign q) (align p q)).2, (align p q).e⟩) = false) ∧
  (∀ p q : CF, isFinite p = true → isFinite q = true → isZero p = false → isZero q = false →
    16384 ≤ (normalizedProduct p q).m ∧ (normalizedProduct p q).m ≤ 65025 ∧
    128 ≤ (normalizedProduct p q).m >>> 7 ∧ (normalizedProduct p q).m >>> 7 ≤ 508) ∧
  (∀ p q : CF, isFinite p = true → isFinite q = true → isZero q = false → (rawQuotient p q).m ≠ 0 →
    belowImplicit (normalizedQuotient p q) = false ∧ (normalizedQuotient p q).m ≤ 32640) ∧
  (∀ v : Scaled, v.m < 512 → above8Bits (whileLoop above8Bits Scaled.shr 1 v) = false) ∧
  (∀ v : Scaled, v.m < 2 ^ 15 → above8Bits (whileLoop above8Bits Scaled.shr 7 v) = false) ∧
  ∀ v : Scaled, v.m < 2 ^ 8 → belowNormal (whileLoop belowNormal Scaled.shr 8 v) = false

/-- 30_encoding.md R68: what each kind of source puts on a port, the words each mnemonic encodes to (its code on `op`,
`va` on `a`, `vb` on `b`, 0 on `b` for a one-operand operation), and a well-formed line: its sources are words, `exec` of
that command, presented on the ports, answers `y` with `err = 0` and changes nothing else, and the line binds its target to
that `y`. Names as numbers and the rejections by name are the model's choice (log entry 14, DESIGN CHOICE). -/
def Obligations.LineBindsResult : Prop :=
  (∀ (cfg : Config) (env : Bindings) (wide : Bool),
    (∀ (n : Nat) (w : Word), env.lookup n = some w → sourceWord cfg env wide (.name n) = .ok w) ∧
    (∀ n : Nat, env.lookup n = none → sourceWord cfg env wide (.name n) = .error (.unboundName n)) ∧
    (∀ v : CF, sourceWord cfg env wide (.pattern v) = .ok (0#20 ++ v)) ∧
    (∀ c : NamedConstant, sourceWord cfg env wide (.constant c) = .ok (0#20 ++ constantPattern cfg c)) ∧
    (∀ v : Word, sourceWord cfg env true (.word v) = .ok v ∧
      sourceWord cfg env false (.word v) = .error .wideLiteral) ∧
    ∀ (negative : Bool) (digits places : Nat),
      sourceWord cfg env true (.decimal negative digits places) = .ok (nearestFp32 negative digits (10 ^ places)) ∧
      sourceWord cfg env false (.decimal negative digits places) = .error .wideLiteral) ∧
  (∀ wa wb : Word,
    encode (unaryCommand .classify wa) = 0x0#4 ++ wa ++ 0#32 ∧ encode (binaryCommand .eq wa wb) = 0x1#4 ++ wa ++ wb ∧
    encode (binaryCommand .gt wa wb) = 0x2#4 ++ wa ++ wb ∧ encode (binaryCommand .lt wa wb) = 0x3#4 ++ wa ++ wb ∧
    encode (unaryCommand .neg wa) = 0x4#4 ++ wa ++ 0#32 ∧ encode (unaryCommand .abs wa) = 0x5#4 ++ wa ++ 0#32 ∧
    encode (unaryCommand .tofp32 wa) = 0x6#4 ++ wa ++ 0#32 ∧ encode (unaryCommand .fromfp32 wa) = 0x7#4 ++ wa ++ 0#32 ∧
    encode (binaryCommand .add wa wb) = 0x8#4 ++ wa ++ wb ∧ encode (binaryCommand .sub wa wb) = 0x9#4 ++ wa ++ wb ∧
    encode (binaryCommand .mul wa wb) = 0xA#4 ++ wa ++ wb ∧ encode (binaryCommand .div wa wb) = 0xB#4 ++ wa ++ wb) ∧
  (∀ (op : UnaryOp) (vd : Nat) (va : Source) (env : Bindings) (s : State),
    (Line.unary op vd va).wellFormed (env.map Prod.fst) = true →
    ∃ wa y, sourceWord s.cfg env (op == .fromfp32) va = .ok wa ∧
      Delivers (unaryCommand op wa) (s.present (encode (unaryCommand op wa))) y false ∧
      runLine (.unary op vd va) env s = .ok (.next
        ((vd, y) :: env, { s.present (encode (unaryCommand op wa)) with y := y, err := false }))) ∧
  ∀ (op : BinaryOp) (vd : Nat) (va vb : Source) (env : Bindings) (s : State),
    (Line.binary op vd va vb).wellFormed (env.map Prod.fst) = true →
    ∃ wa wb y, sourceWord s.cfg env false va = .ok wa ∧ sourceWord s.cfg env false vb = .ok wb ∧
      Delivers (binaryCommand op wa wb) (s.present (encode (binaryCommand op wa wb))) y false ∧
      runLine (.binary op vd va vb) env s = .ok (.next
        ((vd, y) :: env, { s.present (encode (binaryCommand op wa wb)) with y := y, err := false }))

/-- 30_encoding.md R68: a decimal literal is a native float nearest to the decimal, for every decimal that no rounding
takes beyond the native range (below `2^128 - 2^103` in magnitude). That the word carries the written sign, also where it is
a zero, is the model's choice (log entry 14, PRESUMED); which of two equally near floats it is, is not said here. -/
def Obligations.DecimalLiteralIsNearest : Prop :=
  ∀ (negative : Bool) (digits places : Nat), digits < (2 ^ 128 - 2 ^ 103) * 10 ^ places →
    let x : ℚ := (if negative then -1 else 1) * (digits : ℚ) / 10 ^ places
    let w := nearestFp32 negative digits (10 ^ places)
    fSign w = BitVec.ofBool negative ∧ fExponent w ≠ 255#8 ∧
      ∀ z : Word, fExponent z ≠ 255#8 → |nativeValue w - x| ≤ |nativeValue z - x|
end

