-- ==== Sys2Proof/Laws/State.lean ====
section
/-! SUPPORT. One lemma per field for each way a state changes: the host presenting a command, a command answering. -/

namespace Sys2Proof.Machine

@[simp] theorem present_cfg (s : State) (w : CommandWord) : (s.present w).cfg = s.cfg := rfl
@[simp] theorem present_op (s : State) (w : CommandWord) : (s.present w).op = CommandWord.op w := rfl
@[simp] theorem present_a (s : State) (w : CommandWord) : (s.present w).a = CommandWord.a w := rfl
@[simp] theorem present_b (s : State) (w : CommandWord) : (s.present w).b = CommandWord.b w := rfl
@[simp] theorem present_y (s : State) (w : CommandWord) : (s.present w).y = s.y := rfl
@[simp] theorem present_err (s : State) (w : CommandWord) : (s.present w).err = s.err := rfl

/-- The command on the ports after the host presents a command word is the decoded word. -/
@[simp] theorem present_command (s : State) (w : CommandWord) : (s.present w).command = decode w := rfl

/-- The command on the ports reads the three input ports only. -/
theorem command_congr {s t : State} (ho : t.op = s.op) (ha : t.a = s.a) (hb : t.b = s.b) :
    t.command = s.command := by
  simp only [State.command, ho, ha, hb]

/-- Driving the outputs leaves the command on the ports as it is. -/
@[simp] theorem command_outputs (s : State) (y : Word) (err : Bool) :
    ({ s with y := y, err := err } : State).command = s.command := rfl

/-- What an answer is: a next state that differs from `s` in the two outputs only. -/
theorem answer_eq_next {s t : State} {y : Word} {err : Bool} (h : s.answer y err = .next t) :
    t = { s with y := y, err := err } := by
  simpa [State.answer] using h.symm

end Sys2Proof.Machine
end

