-- ==== Sys2Proof/Laws/Exec.lean ====
section
/-! SUPPORT. What a command can do, said once: it drives the two outputs and nothing else, or (TOFP32 only) faults
with the builders' range error. -/

namespace Sys2Proof.Machine

/-- The only command that is not an answer on every path is TOFP32, through its builders. -/
theorem exec_cases (i : Instr) (s : State) :
    (∃ y err, exec i s = s.answer y err) ∨ (∃ f, exec i s = .fault f ∧ ∃ a b, i = .tofp32 a b) := by
  cases i with
  | tofp32 a b =>
    cases h : toFp32 s.cfg (cfOperand a) with
    | ok w => exact .inl ⟨w, false, by simp [exec, execTofp32, h, State.answerWord, toFloat]⟩
    | error f => exact .inr ⟨f, by simp [exec, execTofp32, h], a, b, rfl⟩
  | _ => exact .inl ⟨_, _, rfl⟩

/-- Frame of every command: a next state differs from the state before in the outputs only. -/
theorem exec_frame {i : Instr} {s t : State} (h : exec i s = .next t) :
    t = { s with y := t.y, err := t.err } := by
  obtain ⟨y, err, hy⟩ | ⟨f, hf, -⟩ := exec_cases i s
  · have ht := answer_eq_next (hy ▸ h)
    rw [ht]
  · simp [hf] at h

/-- Frame of a step. -/
theorem step_frame {s t : State} (h : step s = .next t) : t = { s with y := t.y, err := t.err } :=
  exec_frame h

/-- After a step the same command is on the ports. -/
theorem step_command {s t : State} (h : step s = .next t) : t.command = s.command := by
  rw [step_frame h]; rfl

/-- A command reads nothing of the state but the parameters: with other outputs before, the same outputs come out. -/
theorem exec_outputs_before (i : Instr) (s : State) (y : Word) (err : Bool) :
    exec i { s with y := y, err := err } = exec i s := by
  cases i with
  | tofp32 a b =>
    simp only [exec, execTofp32]
    cases toFp32 s.cfg (cfOperand a) <;> rfl
  | _ => rfl

/-! ### One equation per command: its meaning as one answer -/

variable (a b : Word) (s : State)

theorem exec_classify : exec (.classify a b) s = s.answerWord (classWord (cfOperand a)) := rfl
theorem exec_eq : exec (.eq a b) s = s.answerBool (equals (cfOperand a) (cfOperand b)) := rfl
theorem exec_gt : exec (.gt a b) s = s.answerBool (greaterThan (cfOperand a) (cfOperand b)) := rfl
theorem exec_lt : exec (.lt a b) s = s.answerBool (lessThan (cfOperand a) (cfOperand b)) := rfl
theorem exec_neg : exec (.neg a b) s = s.answerCF (negate (cfOperand a)) := rfl
theorem exec_abs : exec (.abs a b) s = s.answerCF (absolute (cfOperand a)) := rfl
theorem exec_fromfp32 : exec (.fromfp32 a b) s = s.answerCF (fromFp32 s.cfg a) := rfl
theorem exec_add : exec (.add a b) s = s.answerCF (add s.cfg (cfOperand a) (cfOperand b)) := rfl
theorem exec_sub : exec (.sub a b) s = s.answerCF (subtract s.cfg (cfOperand a) (cfOperand b)) := rfl
theorem exec_mul : exec (.mul a b) s = s.answerCF (multiply s.cfg (cfOperand a) (cfOperand b)) := rfl
theorem exec_div : exec (.div a b) s = s.answerCF (divide s.cfg (cfOperand a) (cfOperand b)) := rfl
theorem exec_reservedC : exec (.reservedC a b) s = s.answerErr := rfl
theorem exec_reservedD : exec (.reservedD a b) s = s.answerErr := rfl
theorem exec_reservedE : exec (.reservedE a b) s = s.answerErr := rfl
theorem exec_reservedF : exec (.reservedF a b) s = s.answerErr := rfl

/-- TOFP32 where the builders succeed. -/
theorem exec_tofp32_of_ok {w : Word} (h : toFp32 s.cfg (cfOperand a) = .ok w) :
    exec (.tofp32 a b) s = s.answerWord w := by
  simp [exec, execTofp32, h, toFloat]

end Sys2Proof.Machine
end

