-- ==== Sys2Proof/Laws/Fields.lean ====
section
/-! SUPPORT. The fields of a packed pattern, of a negated one, and of an operand slice of a container word. -/

namespace Sys2Proof.Machine

@[simp] theorem sign_pack (s : BitVec 1) (e : BitVec 4) (m : BitVec 7) : sign (pack s e m) = s := by
  ext i; simp only [sign, pack]; simp; grind

@[simp] theorem exponent_pack (s : BitVec 1) (e : BitVec 4) (m : BitVec 7) : exponent (pack s e m) = e := by
  ext i; simp only [exponent, pack]; simp; grind

@[simp] theorem mantissa_pack (s : BitVec 1) (e : BitVec 4) (m : BitVec 7) : mantissa (pack s e m) = m := by
  ext i; simp only [mantissa, pack]; simp; grind

/-- A pattern is its three fields (10_state.md R24). -/
theorem pack_fields (x : CF) : pack (sign x) (exponent x) (mantissa x) = x := by
  ext i; simp only [sign, exponent, mantissa, pack]; simp; grind

/-- Patterns with equal fields are equal. -/
theorem ext_fields {x z : CF} (hs : sign x = sign z) (he : exponent x = exponent z)
    (hm : mantissa x = mantissa z) : x = z := by
  rw [← pack_fields x, ← pack_fields z, hs, he, hm]

@[simp] theorem sign_inf (s : BitVec 1) : sign (inf s) = s := by simp [inf]
@[simp] theorem sign_zero (s : BitVec 1) : sign (zero s) = s := by simp [zero]
@[simp] theorem isInfinity_inf (s : BitVec 1) : isInfinity (inf s) = true := by simp [isInfinity, inf]
@[simp] theorem isZero_zero (s : BitVec 1) : isZero (zero s) = true := by simp [isZero, zero]
@[simp] theorem isNan_inf (s : BitVec 1) : isNan (inf s) = false := by simp [isNan, inf]
@[simp] theorem isNan_zero (s : BitVec 1) : isNan (zero s) = false := by simp [isNan, zero]

/-- NEG changes the sign field and no other (43_unary.md R160). -/
theorem negate_fields (x : CF) :
    sign (negate x) = sign x ^^^ 1#1 ∧ exponent (negate x) = exponent x ∧ mantissa (negate x) = mantissa x := by
  refine ⟨?_, ?_, ?_⟩ <;> ext i hi <;> simp [sign, exponent, mantissa, negate] <;> interval_cases i <;> simp

/-- Reading back the operand slice of a zero-extended pattern gives the pattern (10_state.md R26). -/
@[simp] theorem cfOperand_setWidth (r : CF) : cfOperand (r.setWidth 32) = r := by
  ext i; simp only [cfOperand]; simp; grind

/-- The two ways to write zero extension of a pattern agree. -/
theorem setWidth_eq_append (r : CF) : r.setWidth 32 = (0#20 ++ r : BitVec 32) := by
  ext i; simp; grind

end Sys2Proof.Machine
end

