-- ==== Sys2Proof/Laws/Delivers.lean ====
section
/-! SUPPORT. The claims' words (Delivers, DeliversCF, DeliversBool) in terms of the shared answers. -/

namespace Sys2Proof.Machine

theorem delivers_iff {i : Instr} {s : State} {y : Word} {err : Bool} :
    Delivers i s y err ↔ exec i s = s.answer y err := Iff.rfl

theorem deliversCF_iff {i : Instr} {s : State} {r : CF} : DeliversCF i s r ↔ exec i s = s.answerCF r := by
  rw [DeliversCF, State.answerCF, setWidth_eq_append]; exact Iff.rfl

theorem deliversBool_of_answerBool {i : Instr} {s : State} {r : Bool} {p : Prop} (h : exec i s = s.answerBool r)
    (hp : r = true ↔ p) : DeliversBool i s p := by
  constructor <;> intro h'
  · have : r = true := hp.2 h'
    subst this; exact h
  · have : r = false := by simpa using fun hr => h' (hp.1 hr)
    subst this; exact h

/-- A command delivers at most one pair of outputs. -/
theorem delivers_unique {i : Instr} {s : State} {y z : Word} {e f : Bool} (h : Delivers i s y e)
    (h' : Delivers i s z f) : y = z ∧ e = f := by
  have := h.symm.trans h'
  simpa using this

end Sys2Proof.Machine
end

