-- ==== Sys2Proof/Laws/HostNotation.lean ====
section
/-! SUPPORT. The written notation (30_encoding.md R68): the sources of a well-formed line are words, and a line is one
evaluation of the command it spells. -/

namespace Sys2Proof.Machine

/-- A bound name has a word. -/
theorem lookup_of_bound {env : Bindings} {n : Nat} (h : (env.map Prod.fst).contains n = true) :
    ∃ w, env.lookup n = some w := by
  induction env with
  | nil => simp at h
  | cons x rest ih =>
    obtain ⟨k, w⟩ := x
    by_cases hk : n = k
    · exact ⟨w, by simp [hk]⟩
    · have hne : (n == k) = false := by simpa using hk
      simp only [List.lookup, hne]
      exact ih (by simpa [hk] using h)

/-- An allowed source whose name is bound is a word. -/
theorem sourceWord_of_allowed (cfg : Config) {env : Bindings} {wide : Bool} {v : Source}
    (ha : v.allowed wide = true) (hb : v.bound (env.map Prod.fst) = true) :
    ∃ w, sourceWord cfg env wide v = .ok w := by
  cases v with
  | name n => obtain ⟨w, hw⟩ := lookup_of_bound hb; exact ⟨w, by simp [sourceWord, hw]⟩
  | pattern v => exact ⟨_, rfl⟩
  | word v => exact ⟨v, if_pos ha⟩
  | decimal negative digits places => exact ⟨_, if_pos ha⟩
  | constant c => exact ⟨_, rfl⟩

/-- What a line does, once its command and the step are known. -/
theorem runLine_of_step {l : Line} {env : Bindings} {s t : State} {i : Instr} (hl : lineCommand s.cfg env l = .ok i)
    (ht : step (s.present (encode i)) = .next t) : runLine l env s = .ok (.next ((lineTarget l, t.y) :: env, t)) := by
  simp [runLine, hl, ht]

end Sys2Proof.Machine
end

