-- ==== Sys2Proof/Laws/Loops.lean ====
section
/-! SUPPORT. What the bounded loop can do: it keeps an invariant of its body, it stops at once where its condition is
false, and with enough fuel its condition is false at the end (so the fuel never cuts it short). -/

namespace Sys2Proof.Machine

variable {α : Type} {cond : α → Bool} {body : α → α}

@[simp] theorem whileLoop_zero (v : α) : whileLoop cond body 0 v = v := rfl

theorem whileLoop_succ (n : Nat) (v : α) :
    whileLoop cond body (n + 1) v = if cond v then whileLoop cond body n (body v) else v := rfl

/-- A loop whose condition is false does nothing. -/
theorem whileLoop_of_false {v : α} (h : cond v = false) (n : Nat) : whileLoop cond body n v = v := by
  cases n with
  | zero => rfl
  | succ n => simp [whileLoop_succ, h]

/-- A loop keeps every property that one round under its condition keeps. -/
theorem whileLoop_invariant {P : α → Prop} (hstep : ∀ v, P v → cond v = true → P (body v)) :
    ∀ (n : Nat) (v : α), P v → P (whileLoop cond body n v) := by
  intro n
  induction n with
  | zero => intro v hv; exact hv
  | succ n ih =>
    intro v hv
    cases hc : cond v with
    | false => simpa [whileLoop_succ, hc] using hv
    | true => simpa [whileLoop_succ, hc] using ih (body v) (hstep v hv hc)

/-- With a measure that each round lowers, fuel of at least the measure runs the loop to its exit. -/
theorem whileLoop_exits (μ : α → Nat) (hμ : ∀ v, cond v = true → μ (body v) < μ v) :
    ∀ (n : Nat) (v : α), μ v ≤ n → cond (whileLoop cond body n v) = false := by
  intro n
  induction n with
  | zero =>
    intro v hv
    cases hc : cond v with
    | false => simpa using hc
    | true => exact absurd (hμ v hc) (by omega)
  | succ n ih =>
    intro v hv
    cases hc : cond v with
    | false => simp [whileLoop_succ, hc]
    | true =>
      have := hμ v hc
      simpa [whileLoop_succ, hc] using ih (body v) (by omega)

/-- Past its exit, more fuel changes nothing. -/
theorem whileLoop_stable (m : Nat) : ∀ (n : Nat) (v : α), cond (whileLoop cond body n v) = false →
    whileLoop cond body (n + m) v = whileLoop cond body n v := by
  intro n
  induction n with
  | zero => intro v h; simpa using whileLoop_of_false h m
  | succ n ih =>
    intro v h
    cases hc : cond v with
    | false => simp [whileLoop_of_false hc]
    | true =>
      rw [whileLoop_succ, if_pos hc] at h
      rw [Nat.add_right_comm, whileLoop_succ, whileLoop_succ, if_pos hc, if_pos hc, ih (body v) h]

@[simp] theorem shl_m (v : Scaled) : v.shl.m = v.m * 2 := by simp [Scaled.shl, Nat.shiftLeft_eq]
@[simp] theorem shl_e (v : Scaled) : v.shl.e = v.e - 1 := rfl
@[simp] theorem shr_m (v : Scaled) : v.shr.m = v.m / 2 := by simp [Scaled.shr, Nat.shiftRight_eq_div_pow]
@[simp] theorem shr_e (v : Scaled) : v.shr.e = v.e + 1 := rfl

end Sys2Proof.Machine
end

