-- ==== Sys2Proof/Laws/PerInstr.lean ====
section
/-! SUPPORT. The per-instruction family EncodingFields: the three fields of a command's encoding (30_encoding.md R60)
are its operation code and its two port words. -/

namespace Sys2Proof.Laws.EncodingFields

/-- The fields of the encoding of `i`. -/
def Statement (i : Instr) : Prop :=
  CommandWord.op (encode i) = i.code ∧ CommandWord.a (encode i) = i.portA ∧ CommandWord.b (encode i) = i.portB

/-- The fields of a concatenation of the three ports. -/
theorem fields_append (o : BitVec 4) (a b : Word) :
    CommandWord.op (o ++ a ++ b) = o ∧ CommandWord.a (o ++ a ++ b) = a ∧ CommandWord.b (o ++ a ++ b) = b := by
  refine ⟨?_, ?_, ?_⟩ <;> ext i <;> simp only [CommandWord.op, CommandWord.a, CommandWord.b] <;> simp <;> grind

theorem classify (a b : Word) : Statement (.classify a b) := fields_append _ _ _
theorem eq (a b : Word) : Statement (.eq a b) := fields_append _ _ _
theorem gt (a b : Word) : Statement (.gt a b) := fields_append _ _ _
theorem lt (a b : Word) : Statement (.lt a b) := fields_append _ _ _
theorem neg (a b : Word) : Statement (.neg a b) := fields_append _ _ _
theorem abs (a b : Word) : Statement (.abs a b) := fields_append _ _ _
theorem tofp32 (a b : Word) : Statement (.tofp32 a b) := fields_append _ _ _
theorem fromfp32 (a b : Word) : Statement (.fromfp32 a b) := fields_append _ _ _
theorem add (a b : Word) : Statement (.add a b) := fields_append _ _ _
theorem sub (a b : Word) : Statement (.sub a b) := fields_append _ _ _
theorem mul (a b : Word) : Statement (.mul a b) := fields_append _ _ _
theorem div (a b : Word) : Statement (.div a b) := fields_append _ _ _
theorem reservedC (a b : Word) : Statement (.reservedC a b) := fields_append _ _ _
theorem reservedD (a b : Word) : Statement (.reservedD a b) := fields_append _ _ _
theorem reservedE (a b : Word) : Statement (.reservedE a b) := fields_append _ _ _
theorem reservedF (a b : Word) : Statement (.reservedF a b) := fields_append _ _ _

end Sys2Proof.Laws.EncodingFields
end

