-- ==== Sys2Proof/Tests/Slice0.lean ====
section
/-! SUPPORT. Small tests. Expected results are the spec's: the tables T1 to T9 and programs of 95_test_vectors.md, the
words of 45_from_fp32.md and 93_implementation_defined.md G2; none was taken from the model. Then one witness for each
statement that has hypotheses. -/

namespace Sys2Proof.Tests

open Sys2Proof.Machine

/-- The outputs of a next state. -/
def outputs : Host.Outcome State Fault Refusal → Option (Word × Bool)
  | .next t => some (t.y, t.err)
  | .fault _ => none
  | .refused _ => none

/-- The outputs of one step after reset on the command word `w`. -/
def run (w : Nat) : Option (Word × Bool) := outputs (step (State.reset.withFetchWord 72 w))

/-- The outputs of one step with other parameters. -/
def runWith (cfg : Config) (w : Nat) : Option (Word × Bool) :=
  outputs (step (State.withFetchWord { State.reset with cfg := cfg } 72 w))

/-! ### Well-formedness: what each check refuses -/

theorem test_nan12_infinity_refused : ({ Config.defaults with nan12 := 0x780#12 } : Config).legal = false := by decide
theorem test_nan12_normalized_refused : ({ Config.defaults with nan12 := 0x3C0#12 } : Config).legal = false := by decide
theorem test_nan32_infinity_refused :
    ({ Config.defaults with nan32 := 0x7F800000#32 } : Config).legal = false := by decide
theorem test_nan32_normalized_refused :
    ({ Config.defaults with nan32 := 0x3FC00000#32 } : Config).legal = false := by decide
theorem test_defaults_legal : Config.defaults.legal = true := by decide
theorem test_unbound_name_refused : (Line.unary .neg 1 (.name 7)).wellFormed [3] = false := by decide
theorem test_unbound_second_name_refused :
    (Line.binary .add 1 (.name 3) (.name 7)).wellFormed [3] = false := by decide
theorem test_wide_word_refused : (Line.unary .neg 1 (.word 0x3F800000#32)).wellFormed [] = false := by decide
theorem test_decimal_refused : (Line.binary .add 1 (.decimal false 1 2) (.pattern 0x380#12)).wellFormed [] = false := by
  decide
theorem test_sequence_name_bound_later_refused :
    Line.sequenceWellFormed [] [.unary .neg 1 (.name 2), .unary .abs 2 (.pattern 1#12)] = false := by decide
theorem test_sequence_accepted :
    Line.sequenceWellFormed [] [.unary .fromfp32 2 (.decimal false 1 2), .binary .add 1 (.name 2) (.name 2)] = true := by
  decide
theorem test_command_wellFormed : (Instr.div 0xFFFFF380#32 0xFFFFF000#32).wellFormed = true := by decide

/-! ### Decoding: every constructor, from a command word written out by 30_encoding.md R60 -/

theorem test_decode_class : decode 0x0_00000380_00000FFF#68 = .classify 0x380#32 0xFFF#32 := by decide
theorem test_decode_eq : decode 0x1_00000000_00000800#68 = .eq 0#32 0x800#32 := by decide
theorem test_decode_gt : decode 0x2_00001400_7FFFF380#68 = .gt 0x1400#32 0x7FFFF380#32 := by decide
theorem test_decode_lt : decode 0x3_00000604_0000060C#68 = .lt 0x604#32 0x60C#32 := by decide
theorem test_decode_neg : decode 0x4_FFFFF051_DEADBEEF#68 = .neg 0xFFFFF051#32 0xDEADBEEF#32 := by decide
theorem test_decode_abs : decode 0x5_00000B80_FFFFFFFF#68 = .abs 0xB80#32 0xFFFFFFFF#32 := by decide
theorem test_decode_tofp32 : decode 0x6_FFFFF77F_12345678#68 = .tofp32 0xFFFFF77F#32 0x12345678#32 := by decide
theorem test_decode_fromfp32 : decode 0x7_3C23D70A_00000000#68 = .fromfp32 0x3C23D70A#32 0#32 := by decide
theorem test_decode_add : decode 0x8_FFFFF380_ABCDE400#68 = .add 0xFFFFF380#32 0xABCDE400#32 := by decide
theorem test_decode_sub : decode 0x9_00000510_00000440#68 = .sub 0x510#32 0x440#32 := by decide
theorem test_decode_mul : decode 0xA_12345300_80000300#68 = .mul 0x12345300#32 0x80000300#32 := by decide
theorem test_decode_div : decode 0xB_00000380_00000280#68 = .div 0x380#32 0x280#32 := by decide
theorem test_decode_reservedC : decode 0xC_00000380_00000400#68 = .reservedC 0x380#32 0x400#32 := by decide
theorem test_decode_reservedD : decode 0xD_00000380_00000400#68 = .reservedD 0x380#32 0x400#32 := by decide
theorem test_decode_reservedE : decode 0xE_00000380_00000400#68 = .reservedE 0x380#32 0x400#32 := by decide
theorem test_decode_reservedF : decode 0xF_FFFFFFFF_FFFFFFFF#68 = .reservedF 0xFFFFFFFF#32 0xFFFFFFFF#32 := by decide
theorem test_decode_too_long : decodeNat (2 ^ 68) = .error .longerThanOneCommand := by decide
theorem test_decodeTableWord : decodeTableWord 72 0xA0000000000000000 = some (.mul 0#32 0#32) := by decide
theorem test_encode_div : encode (.div 0x380#32 0x280#32) = 0xB_00000380_00000280#68 := by decide
theorem test_table_no_overlap :
    (opcodeTable.map (fun r => r.pattern)).Nodup ∧ (∀ r ∈ opcodeTable, r.mask = 0xF0000000000000000#68) := by decide

/-! ### One or two vectors for each command (tables T1 to T9) -/

theorem test_class_min_positive : run 0x00000000100000000 = some (0x11A01001#32, false) := by decide
theorem test_class_negative_zero : run 0x00000080000000000 = some (0xD1A00800#32, false) := by decide
theorem test_eq_zeros : run 0x10000000000000800 = some (1#32, false) := by decide
theorem test_eq_nan : run 0x1000007C0000007C0 = some (0#32, false) := by decide
theorem test_gt_negative : run 0x200000B8000000C00 = some (1#32, false) := by decide
theorem test_gt_upper_bits : run 0x2000014007FFFF380 = some (1#32, false) := by decide
theorem test_lt_boundary : run 0x3000006040000060C = some (1#32, false) := by decide
theorem test_lt_zeros : run 0x30000080000000000 = some (0#32, false) := by decide
theorem test_neg_nan : run 0x4000007C000000000 = some (0xFC0#32, false) := by decide
theorem test_neg_junk : run 0x4FFFFF051DEADBEEF = some (0x851#32, false) := by decide
theorem test_abs_nan : run 0x500000FC000000000 = some (0xFC0#32, false) := by decide
theorem test_abs_negative : run 0x500000B80FFFFFFFF = some (0x380#32, false) := by decide
theorem test_tofp32_denormal : run 0x60000005100000000 = some (0x3C220000#32, false) := by decide
theorem test_tofp32_negative_zero : run 0x60000080000000000 = some (0x80000000#32, false) := by decide
theorem test_fromfp32_boundary : run 0x73C23D70A00000000 = some (0x051#32, false) := by decide
theorem test_fromfp32_below : run 0x738FFFFFF00000000 = some (0x000#32, false) := by decide
theorem test_add_carry_lost : run 0x80000004000000040 = some (0x000#32, false) := by decide
theorem test_add_no_guard_bits : run 0x80000038000000B7F = some (0x040#32, false) := by decide
theorem test_sub_exact : run 0x90000051000000440 = some (0x4C0#32, false) := by decide
theorem test_sub_negative_zero : run 0x90000080000000000 = some (0x800#32, false) := by decide
theorem test_mul_carry : run 0xA000003C0000003C0 = some (0x410#32, false) := by decide
theorem test_mul_zero_infinity : run 0xA0000080000000780 = some (0x800#32, false) := by decide
theorem test_div_third : run 0xB0000038000000440 = some (0x2AA#32, false) := by decide
theorem test_div_zero_by_zero : run 0xB0000080000000000 = some (0xF80#32, false) := by decide
theorem test_reservedC : run 0xC0000038000000400 = some (0#32, true) := by decide
theorem test_reservedD : run 0xD0000038000000400 = some (0#32, true) := by decide
theorem test_reservedE : run 0xE0000038000000400 = some (0#32, true) := by decide
theorem test_reservedF : run 0xFFFFFFFFFFFFFFFFF = some (0#32, true) := by decide
/-- Each parameter at a value other than its default (00_scope.md R7; note before table T8 for 0/0). -/
theorem test_parameters :
    runWith { Config.defaults with zdzNan := true } 0xB0000080000000000 = some (0x7C0#32, false) ∧
      runWith { Config.defaults with nan32 := 0xFF800001#32 } 0x600000FFF00000000 = some (0xFF800001#32, false) ∧
      runWith { Config.defaults with nan12 := 0xFFF#12 } 0x80000078000000F80 = some (0xFFF#32, false) := by decide
/-- The worked example after 40_fp32_fields.md R100. -/
theorem test_builders :
    composeFp32 0#1 ⟨0x7F0000, 7⟩ = .ok 0x437F0000#32 ∧
      withUnbiasedExponent 0#32 128 = .error (.rangeError 128) := by decide

/-! ### Host notation (30_encoding.md R68; words of decimals from 93_implementation_defined.md G2) -/

theorem test_decimal_words :
    nearestFp32 false 1 100 = 0x3C23D70A#32 ∧ nearestFp32 false 303 10000 = 0x3CF837B5#32 ∧
      nearestFp32 false 314159265 (10 ^ 8) = 0x40490FDB#32 ∧ nearestFp32 true 256 1 = 0xC3800000#32 := by decide
/-- The sign of a zero is the model's choice (log entry 14). -/
theorem test_decimal_negative_zero :
    nearestFp32 true 0 1 = 0x80000000#32 ∧ nearestFp32 true 1 (10 ^ 60) = 0x80000000#32 := by decide
/-- Program P3, line 3, after lines 1 and 2. -/
theorem test_line_add :
    (match runLine (.binary .add 3 (.name 1) (.name 2)) [(2, 0x020#32), (1, 0x051#32)] State.reset with
      | .ok (.next (env, _)) => env.lookup 3
      | _ => none) = some 0x071#32 := by decide

/-! ### Witnesses: states and operands that meet the hypotheses of each statement -/

theorem witness_StepRunsPresentedCommand :
    State.reset.op ++ State.reset.a ++ State.reset.b = encode (.classify 0#32 0#32) := by decide
theorem witness_StepKeepsInvariant : State.reset.cfg.legal = true ∧ step State.reset = .next State.reset := by
  exact ⟨by decide, rfl⟩
theorem witness_StepKeepsInvariant_Inv : Inv State.reset :=
  ⟨by decide, by exact ⟨by decide, by decide⟩, by decide⟩
theorem witness_StepSettlesOutputs : step State.reset = .next State.reset := rfl
theorem witness_OutputsDependOnCommandAlone :
    let s' : State := { State.reset with y := 5#32, err := true }
    s'.cfg = State.reset.cfg ∧ s'.op = State.reset.op ∧ s'.a = State.reset.a ∧ s'.b = State.reset.b ∧
      s' ≠ State.reset := by decide
theorem witness_DefinedCommandsComplete :
    (Instr.classify 0#32 0#32).code.toNat < 12 ∧ (Instr.div 1#32 2#32).code.toNat < 12 := by decide
theorem witness_PredicateRelations : isZero 0x800#12 = true ∧ Config.defaults.legal = true := by decide
theorem witness_PatternsAndValues :
    isFinite 0x77F#12 = true ∧ 0x001 ≤ (0x001#12 : CF).toNat ∧ (0x001#12 : CF).toNat < (0x77F#12 : CF).toNat ∧
      (0x77F#12 : CF).toNat ≤ 0x77F := by decide
theorem witness_ComparatorOrdersValues :
    isNan (cfOperand 0x780#32) = false ∧ isNan (cfOperand 0xF80#32) = false := by decide
theorem witness_ComparatorTrichotomy :
    isNan 0x400#12 = false ∧ isNan 0x380#12 = false ∧ isNan 0xB80#12 = false ∧
      (greaterThan 0x400#12 0x380#12 || equals 0x400#12 0x380#12) = true ∧
      (greaterThan 0x380#12 0xB80#12 || equals 0x380#12 0xB80#12) = true ∧
      equals 0x000#12 0x800#12 = true ∧ (0x000#12 : CF) ≠ 0x800#12 := by decide
theorem witness_LtIsGtExchanged : isNan (cfOperand 0x604#32) = false ∧ isNan (cfOperand 0x60C#32) = false := by decide
theorem witness_NanIsUnordered : isNan (cfOperand 0x781#32) = true ∧ isNan (cfOperand 0xFFF#32) = true := by decide
theorem witness_AbsResult : isNan (cfOperand 0xF81#32) = true ∧ isNan (cfOperand 0xF80#32) = false := by decide
theorem witness_ToFp32Exact :
    isFinite (cfOperand 0x001#32) = true ∧ exponent (cfOperand 0x001#32) = 0#4 ∧
      mantissa (cfOperand 0x001#32) ≠ 0#7 ∧ isFinite (cfOperand 0xF7F#32) = true := by decide
theorem witness_BuildersStayInRange :
    isFinite 0x001#12 = true ∧ isZero 0x001#12 = false ∧ isFinite 0x77F#12 = true ∧ isZero 0x77F#12 = false := by decide
theorem witness_BuilderRangeErrors :
    ((-127 : Int) < -126 ∨ (127 : Int) < -127) ∧ ((128 : Int) < -126 ∨ (127 : Int) < 128) ∧
      ((-126 : Int) ≤ -126 ∧ (-126 : Int) ≤ 127) ∧ 2 ^ 23 ≤ 8388608 ∧ 8388607 < 2 ^ 23 := by decide
theorem witness_NativeSubnormalsGiveZero : fExponent 0x807FFFFF#32 = 0#8 := by decide
theorem witness_FromFp32Truncates : fExponent 0x437FFFFF#32 ≠ 255#8 ∧ fExponent 0x7F7FFFFF#32 ≠ 255#8 := by decide
theorem witness_FromFp32Monotonic :
    isNativeNan 0xFF800000#32 = false ∧ isNativeNan 0xC3800000#32 = false ∧
      nativeExtendedValue 0xFF800000#32 ≤ nativeExtendedValue 0xC3800000#32 ∧
      (0x00000001#32).toNat ≤ (0x7F800000#32).toNat ∧ (0x7F800000#32).toNat ≤ 0x7F800000 := by
  refine ⟨by decide, by decide, ?_, by decide, by decide⟩
  have h : nativeExtendedValue 0xFF800000#32 = ⊥ := by
    rw [nativeExtendedValue, if_pos (by decide), if_neg (by decide)]
  exact h ▸ bot_le
theorem witness_ConversionRoundTrip :
    isNan (cfOperand 0x800#32) = false ∧ isNan (cfOperand 0xFFF#32) = true ∧ State.reset.cfg.legal = true := by decide
theorem witness_AddSpecials :
    isNan (cfOperand 0x7C0#32) = true ∧ isInfinity (cfOperand 0x780#32) = true ∧ isInfinity (cfOperand 0xF80#32) = true ∧
      sign (cfOperand 0x780#32) ≠ sign (cfOperand 0xF80#32) ∧ isFinite (cfOperand 0x77F#32) = true := by decide
theorem witness_AddFiniteResult : isFinite (cfOperand 0x000#32) = true ∧ isFinite (cfOperand 0xF7F#32) = true := by decide
theorem witness_AddZeroIdentity :
    isFinite (cfOperand 0x001#32) = true ∧ isZero (cfOperand 0x001#32) = false ∧ isZero (cfOperand 0x800#32) = true ∧
      isZero (cfOperand 0x000#32) = true := by decide
theorem witness_CancellationGivesPositiveZero :
    isFinite 0x380#12 = true ∧ isFinite 0xB80#12 = true ∧
      isFinite (cfOperand 0x380#32) = true ∧ sign (cfOperand 0x380#32) ≠ sign (cfOperand 0xB80#32) ∧
      exponent (cfOperand 0x380#32) = exponent (cfOperand 0xB80#32) ∧
      mantissa (cfOperand 0x380#32) = mantissa (cfOperand 0xB80#32) ∧ cfOperand 0x380#32 = cfOperand 0xFFFFF380#32 := by
  decide
theorem witness_DenormalCarryLost :
    exponent (cfOperand 0x001#32) = 0#4 ∧ exponent (cfOperand 0x07F#32) = 0#4 ∧
      sign (cfOperand 0x001#32) = sign (cfOperand 0x07F#32) ∧
      128 ≤ (mantissa (cfOperand 0x001#32)).toNat + (mantissa (cfOperand 0x07F#32)).toNat := by decide
theorem witness_AddSameSignTruncates :
    isNormalized (cfOperand 0x47F#32) = true ∧ isNormalized (cfOperand 0x380#32) = true ∧
      sign (cfOperand 0x47F#32) = sign (cfOperand 0x380#32) := by decide
theorem witness_AddDifferentSigns :
    isFinite (cfOperand 0x081#32) = true ∧ isFinite (cfOperand 0x880#32) = true ∧
      sign (cfOperand 0x081#32) ≠ sign (cfOperand 0x880#32) ∧
      exponent (cfOperand 0x081#32) = exponent (cfOperand 0x880#32) := by decide
theorem witness_SecondAddLoopIsDead : isFinite 0x001#12 = true ∧ isFinite 0x77F#12 = true := by decide
theorem witness_MulSpecials :
    isNan (cfOperand 0x7C0#32) = true ∧ isNan (cfOperand 0x000#32) = false ∧ isNan (cfOperand 0x780#32) = false ∧
      isZero (cfOperand 0x000#32) = true ∧ isZero (cfOperand 0x780#32) = false ∧ isZero (cfOperand 0x001#32) = false ∧
      isNan (cfOperand 0x001#32) = false ∧ isInfinity (cfOperand 0x780#32) = true := by decide
theorem witness_MulTruncatesExactProduct :
    isFinite (cfOperand 0x07F#32) = true ∧ isFinite (cfOperand 0x77F#32) = true := by decide
theorem witness_MulIdentities :
    isNan (cfOperand 0x780#32) = false ∧ cfOperand 0x380#32 = 0x380#12 ∧ cfOperand 0xB80#32 = 0xB80#12 := by decide
theorem witness_FinishTruncates : 128 ≤ 128 ∧ 128 < 2 ^ 15 ∧ 128 ≤ 32640 ∧ 32640 < 2 ^ 15 := by decide
theorem witness_DivSpecials :
    isNan (cfOperand 0xFFF#32) = true ∧ isZero (cfOperand 0x000#32) = true ∧ isZero (cfOperand 0x800#32) = true ∧
      State.reset.cfg.zdzNan = false ∧ ({ Config.defaults with zdzNan := true } : Config).zdzNan = true ∧
      isNan (cfOperand 0x780#32) = false ∧ isZero (cfOperand 0x780#32) = false ∧ isInfinity (cfOperand 0x780#32) = true ∧
      isFinite (cfOperand 0x380#32) = true ∧ isZero (cfOperand 0x380#32) = false := by decide
theorem witness_DivTruncatesFixedPointQuotient :
    isFinite (cfOperand 0x001#32) = true ∧ isFinite (cfOperand 0x081#32) = true ∧
      isZero (cfOperand 0x081#32) = false := by decide
theorem witness_DivAgainstExactQuotient :
    isFinite (cfOperand 0x3FF#32) = true ∧ isFinite (cfOperand 0x380#32) = true ∧ isZero (cfOperand 0x380#32) = false ∧
      (fullMantissa (cfOperand 0x380#32)).toNat ≤ (fullMantissa (cfOperand 0x3FF#32)).toNat := by decide
theorem witness_DivIdentities :
    isFinite (cfOperand 0x001#32) = true ∧ isZero (cfOperand 0x001#32) = false ∧
      cfOperand 0xFFFFF001#32 = cfOperand 0x001#32 ∧ cfOperand 0x380#32 = 0x380#12 := by decide
theorem witness_DivQuotientZero :
    isFinite (cfOperand 0x001#32) = true ∧ isFinite (cfOperand 0x081#32) = true ∧
      isZero (cfOperand 0x081#32) = false ∧
      128 * (fullMantissa (cfOperand 0x001#32)).toNat < (fullMantissa (cfOperand 0x081#32)).toNat := by decide
theorem witness_ProductAndQuotientSigns : State.reset.cfg.legal = true := by decide
theorem witness_NanOrigins :
    State.reset.cfg.legal = true ∧ isNan (cfOperand 0x780#32) = false ∧ isNan (cfOperand 0xF80#32) = false := by decide
theorem witness_IgnoredPortBits : (0#4 : BitVec 4) ≠ 7#4 ∧ (0xF#4 : BitVec 4) ≠ 7#4 := by decide
theorem witness_LoopsExitWithinBounds :
    exponent 0x001#12 = 0#4 ∧ mantissa 0x001#12 ≠ 0#7 ∧ (0xFFFFFF : Nat) < 2 ^ 24 ∧
      isFinite 0x001#12 = true ∧ isZero 0x001#12 = false ∧ (rawQuotient 0x001#12 0x003#12).m ≠ 0 ∧
      isFinite 0x003#12 = true ∧ isZero 0x003#12 = false ∧ (508 : Nat) < 512 ∧ (32640 : Nat) < 2 ^ 15 ∧
      (255 : Nat) < 2 ^ 8 := by decide
theorem witness_LineBindsResult :
    ([(1, 0x051#32)] : Bindings).lookup 1 = some 0x051#32 ∧ ([(1, 0x051#32)] : Bindings).lookup 2 = none ∧
      (Line.binary .add 3 (.name 1) (.constant .nan)).wellFormed ([(1, 0x051#32)].map Prod.fst : List Nat) = true ∧
      (Line.unary .fromfp32 1 (.decimal true 1 2)).wellFormed [] = true ∧
      (Line.unary .neg 1 (.pattern 0x000#12)).wellFormed [] = true := by decide
theorem witness_DecimalLiteralIsNearest :
    0 < (2 ^ 128 - 2 ^ 103) * 10 ^ 0 ∧ 2 ^ 128 - 2 ^ 103 - 1 < (2 ^ 128 - 2 ^ 103) * 10 ^ 0 := by decide

end Sys2Proof.Tests
end

section
/-! PROOFS. Decoding inverts encoding (30_encoding.md R60, R61), and a step evaluates the command on the ports
(00_scope.md R14). -/

namespace Sys2Proof

open Machine

/-- 30_encoding.md R61: the operation code and the two port words of a command select that command. -/
@[simp] theorem decodePorts_code_ports (i : Instr) : decodePorts i.code i.portA i.portB = i := by
  cases i <;> simp [decodePorts, Instr.code, Instr.portA, Instr.portB]

/-- 30_encoding.md R60: a command word put together from three ports decodes as those ports. -/
theorem decode_append (op : BitVec 4) (a b : Word) : decode (op ++ a ++ b) = decodePorts op a b := by
  obtain ⟨hop, ha, hb⟩ := Laws.EncodingFields.fields_append op a b
  rw [decode, hop, ha, hb]

@[simp] theorem decode_encode (i : Instr) : decode (encode i) = i := by
  rw [encode, decode_append, decodePorts_code_ports]

namespace Machine

/-- The command on the ports is the one their concatenation decodes to. -/
theorem command_eq_decode (s : State) : s.command = decode (s.op ++ s.a ++ s.b) :=
  (decode_append s.op s.a s.b).symm

/-- A step on ports that hold the encoding of a command evaluates that command. -/
theorem step_of_ports {s : State} {i : Instr} (h : s.op ++ s.a ++ s.b = encode i) : step s = exec i s := by
  rw [step, command_eq_decode, h, decode_encode]

/-- A step after the host presents a command evaluates that command. -/
theorem step_present (s : State) (i : Instr) : step (s.present (encode i)) = exec i (s.present (encode i)) := by
  rw [step, present_command, decode_encode]

/-- Fetching a command word, whatever the count of bits, is presenting it (log entry 11). -/
@[simp] theorem withFetchWord_toNat (s : State) (nbits : Nat) (w : CommandWord) :
    s.withFetchWord nbits w.toNat = s.present w := by
  rw [State.withFetchWord, BitVec.ofNat_toNat, BitVec.setWidth_eq]

/-- Settles O1: decoding inverts encoding, on the ports and through both ways the host presents a command. -/
theorem stepRunsPresentedCommand : Obligations.StepRunsPresentedCommand := by
  refine ⟨fun _ _ => step_of_ports, step_present, fun s i nbits => ?_⟩
  rw [withFetchWord_toNat, step_present]

end Machine

end Sys2Proof
end

section
/-! PROOFS. A command only answers: the builders of TOFP32 stay in their ranges (44_to_fp32.md R180), so every command
drives outputs that are a function of the command and the parameters (10_state.md R20, 20_memory.md R44, R45). -/

namespace Sys2Proof.Machine

/-! ### The ranges of TOFP32's builders -/

/-- R113: the working exponent of any pattern, infinities and NaNs included. -/
theorem unbiasedExponent_bounds (x : CF) : -6 ≤ unbiasedExponent x ∧ unbiasedExponent x ≤ 8 := by
  have hlt : (exponent x).toNat < 16 := (exponent x).isLt
  unfold unbiasedExponent
  split
  · omega
  · next hpos =>
    have : (exponent x).toNat ≠ 0 := fun h => hpos (BitVec.eq_of_toNat_eq h)
    split <;> omega

/-- Left shifts lower the exponent by at most one a round. -/
theorem whileLoop_shl_e_bounds (cond : Scaled → Bool) (n : Nat) (v : Scaled) :
    v.e - n ≤ (whileLoop cond Scaled.shl n v).e ∧ (whileLoop cond Scaled.shl n v).e ≤ v.e := by
  induction n generalizing v with
  | zero => simp
  | succ n ih =>
    rw [whileLoop_succ]
    split
    · have := ih v.shl
      rw [shl_e] at this
      omega
    · omega

/-- The widened mantissa fits the 23 bits of a native one. -/
theorem widen_m_lt (x : CF) : (widen x).m < 2 ^ 23 := by
  have : (mantissa x).toNat < 128 := (mantissa x).isLt
  simp only [widen, Nat.shiftLeft_eq]
  omega

/-- What TOFP32 hands to its builders is in their ranges (R97, R98), with room to spare. -/
theorem fp32Parts_inRange (x : CF) :
    -13 ≤ (fp32Parts x).e ∧ (fp32Parts x).e ≤ 8 ∧ (fp32Parts x).m < 2 ^ 23 := by
  have he : -6 ≤ (widen x).e ∧ (widen x).e ≤ 8 := unbiasedExponent_bounds x
  unfold fp32Parts
  split
  · have hloop := whileLoop_shl_e_bounds bit23Clear 7 (widen x)
    refine ⟨?_, ?_, Nat.and_lt_two_pow _ (by norm_num)⟩ <;> simp only [unpackDenormal] <;> omega
  · exact ⟨by omega, he.2, widen_m_lt x⟩

/-- R97 inside the range. -/
theorem withUnbiasedExponent_of_inRange {w : Word} {e : Int} (hlo : -126 ≤ e) (hhi : e ≤ 127) :
    withUnbiasedExponent w e = .ok (w.extractLsb' 31 1 ++ BitVec.ofInt 8 (e + 127) ++ w.extractLsb' 0 23) :=
  if_neg (by omega)

/-- R98 inside the range. -/
theorem withMantissa_of_lt {w : Word} {m : Nat} (h : m < 2 ^ 23) :
    withMantissa w m = .ok (w.extractLsb' 23 9 ++ BitVec.ofNat 23 m) :=
  if_neg (by omega)

/-- The builders succeed on an exponent and a mantissa in their ranges. -/
theorem composeFp32_ok_of_inRange {s : BitVec 1} {v : Scaled} (hlo : -126 ≤ v.e) (hhi : v.e ≤ 127)
    (hm : v.m < 2 ^ 23) : ∃ w, composeFp32 s v = .ok w := by
  rw [composeFp32, withUnbiasedExponent_of_inRange hlo hhi]
  exact ⟨_, withMantissa_of_lt hm⟩

/-- R180: TOFP32 is total. -/
theorem toFp32_ok (cfg : Config) (x : CF) : ∃ w, toFp32 cfg x = .ok w := by
  unfold toFp32
  split
  · exact ⟨_, rfl⟩
  split
  · exact ⟨_, rfl⟩
  split
  · exact ⟨_, rfl⟩
  · obtain ⟨hlo, hhi, hm⟩ := fp32Parts_inRange x
    exact composeFp32_ok_of_inRange (by omega) (by omega) hm

/-! ### Every command is one answer -/

/-- 10_state.md R20: the answer of a command is fixed by the command and the parameters, in whatever state it is
evaluated. -/
theorem exec_answers (i : Instr) (cfg : Config) :
    ∃ y err, ∀ s : State, s.cfg = cfg → exec i s = s.answer y err := by
  cases i with
  | tofp32 a b =>
    obtain ⟨w, hw⟩ := toFp32_ok cfg (cfOperand a)
    exact ⟨w, false, fun s hs => exec_tofp32_of_ok a b s (hs ▸ hw)⟩
  | fromfp32 a b | add a b | sub a b | mul a b | div a b =>
    exact ⟨_, false, fun s hs => by simp only [exec_fromfp32, exec_add, exec_sub, exec_mul, exec_div, hs]; rfl⟩
  | _ => exact ⟨_, _, fun _ _ => rfl⟩

/-- After a step, evaluating again changes nothing: the command is still on the ports and reads no output. -/
theorem settled_of_step {s t : State} (h : step s = .next t) : Settled t := by
  have hrun : exec s.command t = exec s.command s := by
    rw [step_frame h, exec_outputs_before]
  calc step t = exec s.command t := by rw [step, step_command h]
    _ = exec s.command s := hrun
    _ = .next t := h

/-- Settles O9: one answer serves both states, since they hold the same command and the same parameters. -/
theorem outputsDependOnCommandAlone : Obligations.OutputsDependOnCommandAlone := by
  intro s s' hcfg hop ha hb
  obtain ⟨y, err, hanswer⟩ := exec_answers s.command s.cfg
  refine ⟨y, err, hanswer s rfl, ?_⟩
  rw [step, command_congr hop ha hb]
  exact hanswer s' hcfg

/-- Settles O7: a step leaves the command on the ports, and no command reads the outputs. -/
theorem stepSettlesOutputs : Obligations.StepSettlesOutputs := fun _ _ => settled_of_step

/-- Settles O5: the parameters are the defaults of R7, and the outputs are the CLASS word of `0x000`. -/
theorem resetMeetsInvariant : Obligations.ResetMeetsInvariant := by
  have hlegal : State.reset.cfg.legal = true := by decide
  have hformat : OutputsFormatted State.reset := ⟨by decide, by decide⟩
  have hclass : deliversOnlyNan12 State.reset.command = false := by decide
  have hword : classWord (cfOperand State.reset.a) = State.reset.y := by decide
  have hsettled : Settled State.reset := by
    calc step State.reset = State.reset.answerWord (classWord (cfOperand State.reset.a)) :=
          exec_classify State.reset.a State.reset.b State.reset
      _ = State.reset.answerWord State.reset.y := by rw [hword]
      _ = .next State.reset := rfl
  exact ⟨⟨hlegal, hformat, fun h => by simp [hclass] at h⟩, hsettled⟩

end Sys2Proof.Machine
end

section
/-! PROOFS. The bits of the operand ports that a command ignores (10_state.md R26, 30_encoding.md R62). -/

namespace Sys2Proof

open Machine

/-! ### The fields of the command on three ports -/

@[simp] theorem portA_decodePorts (op : BitVec 4) (a b : Word) : (decodePorts op a b).portA = a := by
  unfold decodePorts
  split <;> rfl

@[simp] theorem portB_decodePorts (op : BitVec 4) (a b : Word) : (decodePorts op a b).portB = b := by
  unfold decodePorts
  split <;> rfl

@[simp] theorem code_decodePorts (op : BitVec 4) (a b : Word) : (decodePorts op a b).code = op := by
  have hports : (decodePorts op a b).code = (decodePorts op 0#32 0#32).code := by
    unfold decodePorts
    split <;> rfl
  have hcode : ∀ op : BitVec 4, (decodePorts op 0#32 0#32).code = op := by decide
  rw [hports, hcode]

namespace Machine

/-- R26: bits 31:12 of a port are no part of its CompactFloat operand. -/
@[simp] theorem cfOperand_and_mask (port : Word) : cfOperand (port &&& 0xFFF#32) = cfOperand port := by
  rw [cfOperand, BitVec.extractLsb'_and]
  exact BitVec.and_allOnes

/-- TOFP32 reads the CompactFloat operand of port `a` and nothing of port `b`. -/
theorem exec_tofp32_congr {a a' : Word} (b b' : Word) (s : State) (h : cfOperand a = cfOperand a') :
    exec (.tofp32 a b) s = exec (.tofp32 a' b') s := by
  simp only [exec, execTofp32, h]

/-- Every command but FROMFP32 reads its ports through the CompactFloat operands. -/
theorem exec_masked_ports (i : Instr) (s : State) (h : i.code ≠ 7#4) :
    exec (decodePorts i.code (i.portA &&& 0xFFF#32) (i.portB &&& 0xFFF#32)) s = exec i s := by
  cases i with
  | fromfp32 a b => exact absurd rfl h
  | tofp32 a b =>
    simpa [decodePorts, Instr.code, Instr.portA, Instr.portB] using
      exec_tofp32_congr (b &&& 0xFFF#32) b s (cfOperand_and_mask a)
  | classify a b | neg a b | abs a b =>
    simp [decodePorts, Instr.code, Instr.portA, exec_classify, exec_neg, exec_abs]
  | eq a b | gt a b | lt a b =>
    simp [decodePorts, Instr.code, Instr.portA, Instr.portB, exec_eq, exec_gt, exec_lt]
  | add a b | sub a b | mul a b | div a b =>
    simp [decodePorts, Instr.code, Instr.portA, Instr.portB, exec_add, exec_sub, exec_mul, exec_div]
  | reservedC a b | reservedD a b | reservedE a b | reservedF a b =>
    simp [decodePorts, Instr.code, exec_reservedC, exec_reservedD, exec_reservedE, exec_reservedF]

/-- Settles O56: the first part by the masked operands, the second because no one-operand command reads port `b`. -/
theorem ignoredPortBits : Obligations.IgnoredPortBits := by
  refine ⟨fun op a b s hop => ?_, fun a b b' s => ⟨rfl, rfl, rfl, rfl, rfl⟩⟩
  have hmask := exec_masked_ports (decodePorts op a b) s (by rwa [code_decodePorts])
  rwa [code_decodePorts, portA_decodePorts, portB_decodePorts, eq_comm] at hmask

end Machine
end Sys2Proof
end

section
/-! PROOFS. The census of the 4096 patterns, their values and the order of those (10_state.md R24, R27, R29). -/

namespace Sys2Proof.Machine

/-! ### Counting patterns by their fields -/

/-- Counting the numbers below `k * n` whose quotient and remainder by `n` satisfy a test each. -/
theorem countP_range_mul (p q : ℕ → Bool) (k n : ℕ) :
    (List.range (k * n)).countP (fun i => p (i / n) && q (i % n))
      = (List.range k).countP p * (List.range n).countP q := by
  induction k with
  | zero => simp
  | succ k ih =>
    have hblock : ∀ j ∈ List.range n, (p ((k * n + j) / n) && q ((k * n + j) % n)) = (p k && q j) := by
      intro j hj
      have hlt : j < n := List.mem_range.1 hj
      rw [mul_comm k n, Nat.mul_add_div (by omega), Nat.div_eq_of_lt hlt, Nat.mul_add_mod, Nat.mod_eq_of_lt hlt,
        add_zero]
    have hrow : (List.range n).countP (fun j => p k && q j) = (if p k then 1 else 0) * (List.range n).countP q := by
      cases p k <;> simp
    rw [Nat.succ_mul, List.range_add, List.countP_append, ih, List.countP_map, List.range_succ, List.countP_append,
      List.countP_singleton, add_mul, ← hrow]
    congr 1
    exact List.countP_congr fun j hj => by rw [Function.comp_apply, hblock j hj]

/-- Of the `2^w` patterns of `w` bits one is `c`. -/
theorem countP_ofNat_eq {w : ℕ} (c : BitVec w) :
    (List.range (2 ^ w)).countP (fun n => BitVec.ofNat w n == c) = 1 := by
  have hiff : ∀ n ∈ List.range (2 ^ w), (BitVec.ofNat w n == c) = true ↔ (n == c.toNat) = true := by
    intro n hn
    rw [beq_iff_eq, beq_iff_eq, ← BitVec.toNat_inj, BitVec.toNat_ofNat, Nat.mod_eq_of_lt (List.mem_range.1 hn)]
  rw [List.countP_congr hiff]
  exact List.count_eq_one_of_mem List.nodup_range (List.mem_range.2 c.isLt)

/-- Of the `2^w` patterns of `w` bits all but one differ from `c`. -/
theorem countP_ofNat_ne {w : ℕ} (c : BitVec w) :
    (List.range (2 ^ w)).countP (fun n => BitVec.ofNat w n != c) = 2 ^ w - 1 := by
  have hall := List.length_eq_countP_add_countP (fun n => BitVec.ofNat w n == c) (l := List.range (2 ^ w))
  rw [countP_ofNat_eq, List.length_range] at hall
  have hne : (List.range (2 ^ w)).countP (fun n => BitVec.ofNat w n != c)
      = (List.range (2 ^ w)).countP (fun n => ¬(BitVec.ofNat w n == c) = true) :=
    List.countP_congr fun n _ => by simp
  omega

theorem exponent_ofNat (n : ℕ) : exponent (BitVec.ofNat 12 n) = BitVec.ofNat 4 (n / 2 ^ 7 % 2 ^ 4) := by
  apply BitVec.eq_of_toNat_eq
  simp only [exponent, BitVec.extractLsb'_toNat, BitVec.toNat_ofNat, Nat.shiftRight_eq_div_pow]
  omega

theorem mantissa_ofNat (n : ℕ) : mantissa (BitVec.ofNat 12 n) = BitVec.ofNat 7 (n % 2 ^ 7) := by
  apply BitVec.eq_of_toNat_eq
  simp only [mantissa, BitVec.extractLsb'_toNat, BitVec.toNat_ofNat, Nat.shiftRight_eq_div_pow]
  omega

/-- R29: of the patterns told by a test on the exponent field and one on the mantissa field there are twice as many as
fields that pass, once for each sign. -/
theorem countP_patterns (p : CF → Bool) (e : BitVec 4 → Bool) (m : BitVec 7 → Bool) {j k : ℕ}
    (hp : ∀ x, p x = (e (exponent x) && m (mantissa x)))
    (he : (List.range (2 ^ 4)).countP (fun n => e (BitVec.ofNat 4 n)) = j)
    (hm : (List.range (2 ^ 7)).countP (fun n => m (BitVec.ofNat 7 n)) = k) :
    (List.range 4096).countP (fun n => p (BitVec.ofNat 12 n)) = 2 * j * k := by
  have hsign : (List.range (2 * 2 ^ 4)).countP (fun n => e (BitVec.ofNat 4 (n % 2 ^ 4))) = 2 * j := by
    rw [← he]
    simpa only [Bool.true_and, List.countP_true, List.length_range] using
      countP_range_mul (fun _ => true) (fun n => e (BitVec.ofNat 4 n)) 2 (2 ^ 4)
  rw [show 4096 = 2 * 2 ^ 4 * 2 ^ 7 from rfl, ← hsign, ← hm, ← countP_range_mul]
  simp only [hp, exponent_ofNat, mantissa_ofNat]

/-- R29: a denormal other than the zeros has exponent field 0 and a mantissa that is not 0. -/
theorem isDenormalized_and_not_isZero (x : CF) :
    (isDenormalized x && !isZero x) = (exponent x == 0#4 && mantissa x != 0#7) := by
  rw [isDenormalized, isZero, bne]
  cases exponent x == 0#4 <;> rfl

theorem countP_normalized_exponents :
    (List.range (2 ^ 4)).countP (fun n => BitVec.ofNat 4 n != 0#4 && BitVec.ofNat 4 n != 15#4) = 14 := by
  decide

theorem countP_all_mantissas : (List.range (2 ^ 7)).countP (fun _ => true) = 2 ^ 7 := by
  rw [List.countP_true, List.length_range]

/-! ### Values as multiples of the smallest -/

theorem exponent_eq_zero_iff (x : CF) : exponent x = 0#4 ↔ (exponent x).toNat = 0 :=
  BitVec.toNat_inj.symm

/-- R114: the implicit bit stands above the mantissa where the exponent field is not 0. -/
theorem fullMantissa_toNat (x : CF) :
    (fullMantissa x).toNat = (if exponent x = 0#4 then 0 else 128) + (mantissa x).toNat := by
  have hlt : (mantissa x).toNat < 2 ^ 7 := (mantissa x).isLt
  have hwidth : ((mantissa x).setWidth 8).toNat = (mantissa x).toNat := by
    rw [BitVec.toNat_setWidth, Nat.mod_eq_of_lt (by omega)]
  have himplicit : (1#4 ≤ exponent x) ↔ ¬ exponent x = 0#4 := by
    rw [exponent_eq_zero_iff, BitVec.le_def, BitVec.toNat_ofNat]
    omega
  unfold fullMantissa
  by_cases hzero : exponent x = 0#4
  · rw [if_neg (mt himplicit.1 (not_not_intro hzero)), if_pos hzero, hwidth, zero_add]
  · rw [if_pos (himplicit.2 hzero), if_neg hzero, BitVec.toNat_or, hwidth]
    exact (Nat.two_pow_add_eq_or_of_lt hlt 1).symm

/-- The full mantissa has at most eight bits, and fewer exactly where the exponent field is 0. -/
theorem fullMantissa_bounds (x : CF) :
    (fullMantissa x).toNat < 256 ∧ ((fullMantissa x).toNat < 128 ↔ exponent x = 0#4) := by
  have hlt : (mantissa x).toNat < 128 := (mantissa x).isLt
  rw [fullMantissa_toNat]
  by_cases hzero : exponent x = 0#4
  · rw [if_pos hzero]
    exact ⟨by omega, fun _ => hzero, fun _ => by omega⟩
  · rw [if_neg hzero]
    exact ⟨by omega, fun h => absurd h (by omega), fun h => absurd h hzero⟩

/-- The magnitude in units of `2^-13`, the smallest positive value (R24). -/
def magnitudeUnits (x : CF) : ℕ := (fullMantissa x).toNat * 2 ^ ((exponent x).toNat - 1)

theorem magnitude_eq_units (x : CF) : magnitude x = (magnitudeUnits x : ℚ) / 2 ^ 13 := by
  rw [magnitude, magnitudeUnits, fullMantissa_toNat]
  split
  · next hzero =>
    simp only [hzero, BitVec.toNat_ofNat]
    push_cast
    ring
  · next hpos =>
    rw [exponent_eq_zero_iff] at hpos
    obtain ⟨k, hk⟩ : ∃ k, (exponent x).toNat = k + 1 := Nat.exists_eq_succ_of_ne_zero hpos
    rw [hk, Nat.add_sub_cancel]
    push_cast
    ring

/-- Every value, of either sign, is a whole number of units. -/
theorem value_eq_units (x : CF) :
    value x = ((if sign x = 0#1 then magnitudeUnits x else -magnitudeUnits x : ℤ) : ℚ) / 2 ^ 13 := by
  rw [value, magnitude_eq_units]
  split <;> push_cast <;> ring

/-- The units grow with the magnitude key of R145: first the exponent field, then the mantissa. -/
theorem magnitudeUnits_lt_of_fields {x z : CF}
    (h : (exponent x).toNat < (exponent z).toNat ∨
      exponent x = exponent z ∧ (mantissa x).toNat < (mantissa z).toNat) :
    magnitudeUnits x < magnitudeUnits z := by
  unfold magnitudeUnits
  obtain hexp | ⟨hexp, hmant⟩ := h
  · obtain ⟨hx, hx0⟩ := fullMantissa_bounds x
    obtain ⟨-, hz0⟩ := fullMantissa_bounds z
    rw [exponent_eq_zero_iff] at hx0 hz0
    have hz : 128 ≤ (fullMantissa z).toNat := by omega
    have hpow : 2 ^ (exponent x).toNat ≤ 2 ^ ((exponent z).toNat - 1) :=
      Nat.pow_le_pow_right (by norm_num) (by omega)
    calc (fullMantissa x).toNat * 2 ^ ((exponent x).toNat - 1)
        < 128 * 2 ^ (exponent x).toNat := by
          cases hk : (exponent x).toNat with
          | zero => omega
          | succ k =>
            rw [Nat.add_sub_cancel, Nat.pow_succ]
            have := Nat.mul_lt_mul_of_pos_right hx (Nat.two_pow_pos k)
            omega
      _ ≤ (fullMantissa z).toNat * 2 ^ ((exponent z).toNat - 1) := Nat.mul_le_mul hz hpow
  · rw [hexp]
    refine Nat.mul_lt_mul_of_pos_right ?_ (Nat.two_pow_pos _)
    rw [fullMantissa_toNat, fullMantissa_toNat, hexp]
    omega

/-- R24: a pattern read as a number, by its fields. -/
theorem toNat_eq_fields (x : CF) :
    x.toNat = (sign x).toNat * 2048 + (exponent x).toNat * 128 + (mantissa x).toNat := by
  have hlt : x.toNat < 4096 := x.isLt
  simp only [sign, exponent, mantissa, BitVec.extractLsb'_toNat, Nat.shiftRight_eq_div_pow]
  omega

/-- The lower half of the patterns is the positive ones. -/
theorem sign_eq_zero_of_lt {x : CF} (h : x.toNat < 2048) : sign x = 0#1 := by
  apply BitVec.eq_of_toNat_eq
  have := toNat_eq_fields x
  simp only [BitVec.toNat_ofNat]
  omega

theorem value_of_sign_zero {x : CF} (h : sign x = 0#1) : value x = (magnitudeUnits x : ℚ) / 2 ^ 13 := by
  rw [value, if_pos h, magnitude_eq_units]

/-- Positive patterns are in the order of their values, beyond the finite ones too. -/
theorem value_lt_of_toNat_lt {x z : CF} (hxz : x.toNat < z.toNat) (hz : z.toNat < 2048) : value x < value z := by
  have hsx := sign_eq_zero_of_lt (hxz.trans hz)
  have hsz := sign_eq_zero_of_lt hz
  have hunits : magnitudeUnits x < magnitudeUnits z := by
    apply magnitudeUnits_lt_of_fields
    have hx := toNat_eq_fields x
    have hz' := toNat_eq_fields z
    rw [hsx] at hx
    rw [hsz] at hz'
    have hmx : (mantissa x).toNat < 128 := (mantissa x).isLt
    have hmz : (mantissa z).toNat < 128 := (mantissa z).isLt
    rw [← BitVec.toNat_inj]
    omega
  rw [value_of_sign_zero hsx, value_of_sign_zero hsz]
  gcongr

/-- Settles O16: each census is a count of exponents times a count of mantissas; the order and the multiples are those
of the units. -/
theorem patternsAndValues : Obligations.PatternsAndValues := by
  refine ⟨?zeros, ?denormals, ?normalized, ?infinities, ?nans, ?finite, fun x _ => ⟨_, value_eq_units x⟩,
    fun x z _ hxz hz => value_lt_of_toNat_lt hxz (by omega)⟩
  case zeros =>
    exact countP_patterns isZero (· == 0#4) (· == 0#7) (fun _ => rfl) (countP_ofNat_eq _) (countP_ofNat_eq _)
  case denormals =>
    exact countP_patterns (fun x => isDenormalized x && !isZero x) (· == 0#4) (· != 0#7)
      isDenormalized_and_not_isZero (countP_ofNat_eq _) (countP_ofNat_ne _)
  case normalized =>
    exact countP_patterns isNormalized (fun e => e != 0#4 && e != 15#4) (fun _ => true)
      (fun _ => (Bool.and_true _).symm) countP_normalized_exponents countP_all_mantissas
  case infinities =>
    exact countP_patterns isInfinity (· == 15#4) (· == 0#7) (fun _ => rfl) (countP_ofNat_eq _) (countP_ofNat_eq _)
  case nans =>
    exact countP_patterns isNan (· == 15#4) (· != 0#7) (fun _ => rfl) (countP_ofNat_eq _) (countP_ofNat_ne _)
  case finite =>
    exact countP_patterns isFinite (· != 15#4) (fun _ => true) (fun _ => (Bool.and_true _).symm)
      (countP_ofNat_ne _) countP_all_mantissas

/-- Settles O17: the patterns by unfolding `pack`, the values in units of `2^-13`. -/
theorem namedConstants : Obligations.NamedConstants := by
  intro cfg
  have hmin : magnitudeUnits 0x001#12 = 1 := by decide
  have hmax : magnitudeUnits 0x77F#12 = 255 * 2 ^ 13 := by decide
  have hzero : magnitudeUnits 0x000#12 = 0 ∧ magnitudeUnits 0x800#12 = 0 := by decide
  refine ⟨rfl, rfl, rfl, rfl, rfl, rfl, rfl, rfl, fun s => ⟨rfl, rfl⟩, ?_, ?_, ?_, ?_⟩ <;> rw [value_eq_units]
  · simp [hmin, show sign 0x001#12 = 0#1 from rfl]
  · norm_num [hmax, show sign 0x77F#12 = 0#1 from rfl]
  · simp [hzero.1]
  · simp [hzero.2]

end Sys2Proof.Machine
end

section
/-! PROOFS. Encoding inverts decoding, and the operation table (30_encoding.md R60, R61). -/

namespace Sys2Proof

/-! ### Encoding inverts decoding -/

/-- The fields of R60 cut the command word into its three ports. -/
theorem append_fields (w : CommandWord) : CommandWord.op w ++ CommandWord.a w ++ CommandWord.b w = w := by
  have hports : CommandWord.op w ++ CommandWord.a w = w.extractLsb' 32 36 :=
    BitVec.extractLsb'_append_extractLsb'_eq_extractLsb' rfl
  rw [hports]
  exact (BitVec.extractLsb'_append_extractLsb'_eq_extractLsb' rfl).trans BitVec.extractLsb'_eq_self

theorem encode_decodePorts (op : BitVec 4) (a b : Word) : encode (decodePorts op a b) = op ++ a ++ b := by
  rw [encode, code_decodePorts, portA_decodePorts, portB_decodePorts]

@[simp] theorem encode_decode (w : CommandWord) : encode (decode w) = w := by
  rw [decode, encode_decodePorts, append_fields]

/-- Settles O3: the decoder reads back the three fields of an encoding, and these are the whole word. -/
theorem decodeEncodeRoundTrip : Obligations.DecodeEncodeRoundTrip := ⟨decode_encode, encode_decode⟩

/-- Settles O2: the decoder evaluated on ten written-out words. -/
theorem sampleCommandWordsDecode : Obligations.SampleCommandWordsDecode := by
  unfold Obligations.SampleCommandWordsDecode
  decide

/-! ### The operation table -/

/-- The row of spec/opcode_table.json of an operation code: that of the command the code decodes to. -/
def codeRow (op : BitVec 4) : TableRow := ⟨(decodePorts op 0#32 0#32).mnemonic, opMask, op ++ 0#32 ++ 0#32⟩

/-- The sixteen rows are those of the sixteen codes, in the order of the codes. -/
theorem opcodeTable_eq_codeRows : opcodeTable = (List.finRange 16).map (fun n => codeRow (BitVec.ofFin n)) := by
  decide

theorem mem_opcodeTable_iff {r : TableRow} : r ∈ opcodeTable ↔ ∃ op, codeRow op = r := by
  rw [opcodeTable_eq_codeRows, List.mem_map]
  exact ⟨fun ⟨n, _, h⟩ => ⟨_, h⟩, fun ⟨op, h⟩ => ⟨op.toFin, List.mem_finRange _, h⟩⟩

/-- The mask of every row keeps the operation code and clears the operand ports. -/
theorem and_opMask (w : CommandWord) : w &&& opMask = CommandWord.op w ++ 0#32 ++ 0#32 := by
  have hmask : opMask = BitVec.allOnes 4 ++ 0#32 ++ 0#32 := by decide
  calc w &&& opMask
      = (CommandWord.op w ++ CommandWord.a w ++ CommandWord.b w) &&& (BitVec.allOnes 4 ++ 0#32 ++ 0#32) := by
        rw [append_fields, hmask]
    _ = CommandWord.op w ++ 0#32 ++ 0#32 := by
        rw [BitVec.and_append, BitVec.and_append, BitVec.and_allOnes, BitVec.and_zero, BitVec.and_zero]

/-- R61: the row of a code selects the command words that carry this code. -/
theorem codeRow_selects_iff (op : BitVec 4) (w : CommandWord) :
    (codeRow op).selects w = true ↔ op = CommandWord.op w := by
  rw [TableRow.selects, codeRow, and_opMask, beq_iff_eq, BitVec.append_left_inj, BitVec.append_left_inj]
  exact eq_comm

/-- The mnemonic is that of the code, whatever the operands. -/
theorem mnemonic_decodePorts (op : BitVec 4) (a b : Word) :
    (decodePorts op a b).mnemonic = (codeRow op).mnemonic := by
  unfold codeRow decodePorts
  split <;> rfl

/-- Settles O4: the one row is that of the code on `cmd[67:64]`. -/
theorem everyCommandSelectsOneRow : Obligations.EveryCommandSelectsOneRow := by
  intro w
  refine ⟨codeRow (CommandWord.op w), mem_opcodeTable_iff.2 ⟨_, rfl⟩, (codeRow_selects_iff _ w).2 rfl, ?unique,
    mnemonic_decodePorts .., portA_decodePorts .., portB_decodePorts ..⟩
  intro r hr hsel
  obtain ⟨op, rfl⟩ := mem_opcodeTable_iff.1 hr
  rw [(codeRow_selects_iff op w).1 hsel]

end Sys2Proof
end

section
/-! PROOFS. The fields of the classification word (30_encoding.md R65, 41_classifier.md R124). -/

namespace Sys2Proof.Machine

/-! ### The word cut into its twelve fields -/

/-- A single bit is read off the slice of width 1 that starts there. -/
theorem getLsbD_of_extractLsb' {n i : ℕ} {y : BitVec n} {t : Bool} (h : y.extractLsb' i 1 = BitVec.ofBool t) :
    y.getLsbD i = t := by
  have hbit := congrArg (·.getLsbD 0) h
  simpa using hbit

/-- R65, bits 24:0: the fields wider than a bit, and the sign. -/
theorem classWord_numbers (x : CF) :
    (classWord x).extractLsb' 0 7 = mantissa x ∧ (classWord x).extractLsb' 7 4 = exponent x ∧
    (classWord x).extractLsb' 11 1 = sign x ∧ (classWord x).extractLsb' 12 8 = fullMantissa x ∧
    (classWord x).extractLsb' 20 5 = tc5 (unbiasedExponent x) := by
  refine ⟨BitVec.extractLsb'_append_eq_right, ?_, ?_, ?_, ?_⟩ <;>
    refine (BitVec.extractLsb'_append_eq_of_le (by decide)).trans ?_ <;>
    simp (disch := decide) only [-Nat.reduceAdd, BitVec.extractLsb'_append_eq_of_le,
      BitVec.extractLsb'_append_eq_of_add_le] <;>
    exact BitVec.extractLsb'_eq_self

/-- R65, bits 31:25: the predicates. -/
theorem classWord_predicates (x : CF) :
    (classWord x).extractLsb' 25 1 = BitVec.ofBool (isNan x) ∧
    (classWord x).extractLsb' 26 1 = BitVec.ofBool (isPositiveInfinity x) ∧
    (classWord x).extractLsb' 27 1 = BitVec.ofBool (isNegativeInfinity x) ∧
    (classWord x).extractLsb' 28 1 = BitVec.ofBool (isDenormalized x) ∧
    (classWord x).extractLsb' 29 1 = BitVec.ofBool (isPositiveZero x) ∧
    (classWord x).extractLsb' 30 1 = BitVec.ofBool (isNegativeZero x) ∧
    (classWord x).extractLsb' 31 1 = BitVec.ofBool (isZero x) := by
  refine ⟨?_, ?_, ?_, ?_, ?_, ?_, ?_⟩ <;>
    refine (BitVec.extractLsb'_append_eq_of_le (by decide)).trans ?_ <;>
    simp (disch := decide) only [-Nat.reduceAdd, BitVec.extractLsb'_append_eq_of_le,
      BitVec.extractLsb'_append_eq_of_add_le] <;>
    exact BitVec.extractLsb'_eq_self

/-! ### The fields of an operand on the bits of its port -/

theorem mantissa_cfOperand (port : Word) : mantissa (cfOperand port) = port.extractLsb' 0 7 :=
  BitVec.extractLsb'_extractLsb'_of_le (by decide)

theorem exponent_cfOperand (port : Word) : exponent (cfOperand port) = port.extractLsb' 7 4 :=
  BitVec.extractLsb'_extractLsb'_of_le (by decide)

theorem sign_cfOperand (port : Word) : sign (cfOperand port) = port.extractLsb' 11 1 :=
  BitVec.extractLsb'_extractLsb'_of_le (by decide)

/-- R65: the low twelve bits of the classification word are the operand. -/
@[simp] theorem cfOperand_classWord (x : CF) : cfOperand (classWord x) = x := by
  obtain ⟨hmantissa, hexponent, hsign, -, -⟩ := classWord_numbers x
  exact ext_fields (by rw [sign_cfOperand, hsign]) (by rw [exponent_cfOperand, hexponent])
    (by rw [mantissa_cfOperand, hmantissa])

/-! ### The fields and predicates as R124 states them -/

/-- R114: the implicit bit, then the mantissa. -/
theorem fullMantissa_eq_append (x : CF) :
    fullMantissa x = (if exponent x = 0#4 then 0#1 else 1#1) ++ mantissa x := by
  have hlt : (mantissa x).toNat < 2 ^ 7 := (mantissa x).isLt
  apply BitVec.eq_of_toNat_eq
  rw [fullMantissa_toNat, BitVec.toNat_append, ← Nat.shiftLeft_add_eq_or_of_lt hlt]
  split <;> rfl

/-- R113, R122: five bits of two's complement hold the unbiased exponent; the 8 of exponent 15 is `15 - 7` too. -/
theorem toInt_tc5_unbiasedExponent (x : CF) :
    (tc5 (unbiasedExponent x)).toInt = if exponent x = 0#4 then -6 else ((exponent x).toNat : Int) - 7 := by
  obtain ⟨hlo, hhi⟩ := unbiasedExponent_bounds x
  rw [tc5, BitVec.toInt_ofInt, Int.bmod_eq_of_le (by norm_num; omega) (by norm_num; omega), unbiasedExponent]
  by_cases hmax : exponent x = 15#4
  · simp [hmax]
  · simp [hmax]

/-- A pattern is the packing of three fields exactly when its fields are these. -/
theorem eq_pack_iff {x : CF} {s : BitVec 1} {e : BitVec 4} {m : BitVec 7} :
    x = pack s e m ↔ sign x = s ∧ exponent x = e ∧ mantissa x = m := by
  constructor
  · rintro rfl
    exact ⟨sign_pack s e m, exponent_pack s e m, mantissa_pack s e m⟩
  · rintro ⟨rfl, rfl, rfl⟩
    exact (pack_fields x).symm

theorem isNan_iff {x : CF} : isNan x = true ↔ exponent x = 15#4 ∧ mantissa x ≠ 0#7 := by
  simp [isNan]

theorem isPositiveInfinity_iff {x : CF} : isPositiveInfinity x = true ↔ x = 0x780#12 := by
  rw [show 0x780#12 = pack 0#1 15#4 0#7 from rfl, eq_pack_iff]
  simp [isPositiveInfinity, and_assoc]

theorem isNegativeInfinity_iff {x : CF} : isNegativeInfinity x = true ↔ x = 0xF80#12 := by
  rw [show 0xF80#12 = pack 1#1 15#4 0#7 from rfl, eq_pack_iff]
  simp [isNegativeInfinity, and_assoc]

theorem isZero_iff {x : CF} : isZero x = true ↔ exponent x = 0#4 ∧ mantissa x = 0#7 := by
  simp [isZero]

/-- R121: a zero of either sign is eleven clear bits. -/
theorem isZero_cfOperand_iff {port : Word} : isZero (cfOperand port) = true ↔ port.extractLsb' 0 11 = 0#11 := by
  have hlow : port.extractLsb' 7 4 ++ port.extractLsb' 0 7 = port.extractLsb' 0 11 :=
    BitVec.extractLsb'_append_extractLsb'_eq_extractLsb' rfl
  rw [isZero_iff, exponent_cfOperand, mantissa_cfOperand]
  constructor
  · rintro ⟨hexponent, hmantissa⟩
    rw [← hlow, hexponent, hmantissa]
    rfl
  · intro hclear
    have hexponent : (port.extractLsb' 0 11).extractLsb' 7 4 = port.extractLsb' 7 4 :=
      BitVec.extractLsb'_extractLsb'_of_le (by decide)
    have hmantissa : (port.extractLsb' 0 11).extractLsb' 0 7 = port.extractLsb' 0 7 :=
      BitVec.extractLsb'_extractLsb'_of_le (by decide)
    rw [← hexponent, ← hmantissa, hclear]
    exact ⟨rfl, rfl⟩

/-- Settles O13: the fields of the classification word of port `a`'s operand, each read on the bits of the port. -/
theorem classWordLayout : Obligations.ClassWordLayout := by
  intro a b s
  obtain ⟨hmantissa, hexponent, hsign, hfull, hunbiased⟩ := classWord_numbers (cfOperand a)
  obtain ⟨hnan, hposInf, hnegInf, hdenormal, hposZero, hnegZero, hzero⟩ := classWord_predicates (cfOperand a)
  refine ⟨classWord (cfOperand a), exec_classify a b s, ?_, ?_, ?_, ?_, ?_, ?_, ?_, ?_, ?_, ?_, ?_, ?_⟩
  · rw [hmantissa, mantissa_cfOperand]
  · rw [hexponent, exponent_cfOperand]
  · rw [hsign, sign_cfOperand]
  · rw [hfull, fullMantissa_eq_append, exponent_cfOperand, mantissa_cfOperand]
  · rw [hunbiased, toInt_tc5_unbiasedExponent, exponent_cfOperand]
  · rw [getLsbD_of_extractLsb' hnan, isNan_iff, exponent_cfOperand, mantissa_cfOperand]
  · rw [getLsbD_of_extractLsb' hposInf, isPositiveInfinity_iff, cfOperand]
  · rw [getLsbD_of_extractLsb' hnegInf, isNegativeInfinity_iff, cfOperand]
  · rw [getLsbD_of_extractLsb' hdenormal, isDenormalized, beq_iff_eq, exponent_cfOperand]
  · rw [getLsbD_of_extractLsb' hposZero, isPositiveZero, beq_iff_eq, cfOperand]
  · rw [getLsbD_of_extractLsb' hnegZero, isNegativeZero, beq_iff_eq, cfOperand]
  · rw [getLsbD_of_extractLsb' hzero, isZero_cfOperand_iff]

end Sys2Proof.Machine
end

section
/-! PROOFS. A defined code answers with `err = 0`, a reserved one with `y = 0` and `err = 1` (30_encoding.md R66). -/

namespace Sys2Proof.Machine

/-- R66: a command with a code below 12 answers with `err = 0`, whatever the operands. -/
theorem exec_answers_of_code_lt {i : Instr} (h : i.code.toNat < 12) (s : State) :
    ∃ y, exec i s = s.answer y false := by
  cases i with
  | tofp32 a b =>
    obtain ⟨w, hw⟩ := toFp32_ok s.cfg (cfOperand a)
    exact ⟨w, exec_tofp32_of_ok a b s hw⟩
  | reservedC a b | reservedD a b | reservedE a b | reservedF a b => exact absurd h (by simp [Instr.code])
  | _ => exact ⟨_, rfl⟩

/-- Settles O12: an answer with `err = 0` is what `Delivers` says. -/
theorem definedCommandsComplete : Obligations.DefinedCommandsComplete :=
  fun _ s h => exec_answers_of_code_lt h s

/-- Settles O11: each of the four is the error answer. -/
theorem reservedCodesAnswerError : Obligations.ReservedCodesAnswerError :=
  fun a b s => ⟨exec_reservedC a b s, exec_reservedD a b s, exec_reservedE a b s, exec_reservedF a b s⟩

end Sys2Proof.Machine
end

section
/-! PROOFS. What the arithmetic delivers is finite, an Infinity, or the one NaN `P_NAN12` (43_unary.md R162). The point
is the exponent field: every loop leaves a working exponent that packs without reaching 15. -/

namespace Sys2Proof.Machine

/-! ### What the loop conditions say -/

@[simp] theorem lostLeadingBit_iff {v : Scaled} : lostLeadingBit v = true ↔ v.m < 128 ∧ 0 < v.e :=
  decide_eq_true_iff

@[simp] theorem aboveDenormalFloor_iff {v : Scaled} : aboveDenormalFloor v = true ↔ v.m < 128 ∧ 1 < v.e :=
  decide_eq_true_iff

@[simp] theorem above8Bits_iff {v : Scaled} : above8Bits v = true ↔ 255 < v.m := decide_eq_true_iff

@[simp] theorem belowNormal_iff {v : Scaled} : belowNormal v = true ↔ v.e < 1 ∧ v.m ≠ 0 := decide_eq_true_iff

@[simp] theorem belowSquaredImplicit_iff {v : Scaled} : belowSquaredImplicit v = true ↔ v.m < 16384 :=
  decide_eq_true_iff

@[simp] theorem belowImplicit_iff {v : Scaled} : belowImplicit v = true ↔ v.m < 128 := decide_eq_true_iff

/-! ### Packing an exponent in range gives a finite pattern -/

theorem isFinite_iff {x : CF} : isFinite x = true ↔ exponent x ≠ 15#4 := by
  simp [isFinite]

theorem exponent_le_of_isFinite {x : CF} (h : isFinite x = true) : (exponent x).toNat ≤ 14 := by
  have hlt : (exponent x).toNat < 16 := (exponent x).isLt
  have hne : (exponent x).toNat ≠ 15 := fun h15 => isFinite_iff.1 h (BitVec.eq_of_toNat_eq h15)
  omega

theorem isNan_of_isFinite {x : CF} (h : isFinite x = true) : isNan x = false := by
  simp [isNan, isFinite_iff.1 h]

theorem isNan_of_isInfinity {x : CF} (h : isInfinity x = true) : isNan x = false := by
  simp only [isInfinity, Bool.and_eq_true, beq_iff_eq] at h
  simp [isNan, h]

/-- A pattern that is no NaN and no Infinity is finite. -/
theorem isFinite_of_not_special {x : CF} (hnan : isNan x = false) (hinf : isInfinity x = false) :
    isFinite x = true := by
  rw [isFinite_iff]
  intro hexp
  simp_all [isNan, isInfinity]

@[simp] theorem isFinite_zero (s : BitVec 1) : isFinite (zero s) = true := by simp [isFinite, zero]

theorem isFinite_pack_ofInt {s : BitVec 1} {e : Int} {m : BitVec 7} (hlo : 0 ≤ e) (hhi : e ≤ 14) :
    isFinite (pack s (BitVec.ofInt 4 e) m) = true := by
  rw [isFinite_iff, exponent_pack]
  intro h15
  have hnat := congrArg BitVec.toNat h15
  rw [BitVec.toNat_ofInt, BitVec.toNat_ofNat] at hnat
  omega

/-! ### Addition (46_add_sub.md) -/

/-- R212: the working exponent of finite operands is an exponent field of a finite pattern. -/
theorem align_e_bounds {p q : CF} (hp : isFinite p = true) (hq : isFinite q = true) :
    0 ≤ (align p q).e ∧ (align p q).e ≤ 14 := by
  have hep := exponent_le_of_isFinite hp
  have heq := exponent_le_of_isFinite hq
  simp only [align]
  split <;> simp only <;> omega

/-- R213: the carry raises the exponent, and the second loop stops at exponent 0. -/
theorem isNan_addSameSign (s : BitVec 1) {v : Aligned} (h : 0 ≤ v.e) : isNan (addSameSign s v) = false := by
  have hcarry : 0 ≤ (carried v).e := by
    refine whileLoop_invariant (P := fun w : Scaled => 0 ≤ w.e) (fun w hw _ => ?_) 1 _ h
    rw [shr_e]
    omega
  have hlost : 0 ≤ (whileLoop lostLeadingBit Scaled.shl (carried v).e.toNat (carried v)).e := by
    refine whileLoop_invariant (P := fun w : Scaled => 0 ≤ w.e) (fun w _ hc => ?_) _ _ hcarry
    rw [lostLeadingBit_iff] at hc
    rw [shl_e]
    omega
  simp only [addSameSign]
  split
  · exact isNan_inf s
  · exact isNan_of_isFinite (isFinite_pack_ofInt hlost (by omega))

/-- R214: the exponent only falls, and not below 1 by the loop. -/
theorem isFinite_addDifferentSign (sp sq : BitVec 1) {v : Aligned} (hlo : 0 ≤ v.e) (hhi : v.e ≤ 14) :
    isFinite (addDifferentSign sp sq v) = true := by
  obtain ⟨hlo', hhi'⟩ := whileLoop_invariant (cond := aboveDenormalFloor) (body := Scaled.shl)
    (P := fun w => 0 ≤ w.e ∧ w.e ≤ 14)
    (fun w hw hc => by rw [aboveDenormalFloor_iff] at hc; rw [shl_e]; omega)
    13 ⟨(difference sp sq v).2, v.e⟩ ⟨hlo, hhi⟩
  simp only [addDifferentSign]
  split
  · exact isFinite_pack_ofInt le_rfl (by norm_num)
  · exact isFinite_pack_ofInt hlo' hhi'

theorem isNan_addFinite {p q : CF} (hp : isFinite p = true) (hq : isFinite q = true) :
    isNan (addFinite p q) = false := by
  obtain ⟨hlo, hhi⟩ := align_e_bounds hp hq
  unfold addFinite
  split
  · exact isNan_addSameSign _ hlo
  · exact isNan_of_isFinite (isFinite_addDifferentSign _ _ hlo hhi)

/-! ### Multiplication and division (47_multiply.md, 48_divide.md) -/

/-- Halving takes a bit away. -/
theorem size_div_two_lt {m : ℕ} (h : m ≠ 0) : (m / 2).size < m.size := by
  obtain ⟨k, hk⟩ := Nat.exists_eq_succ_of_ne_zero (Nat.size_pos.2 (Nat.pos_of_ne_zero h)).ne'
  have hm : m < 2 ^ (k + 1) := Nat.size_le.1 hk.le
  rw [hk, Nat.lt_succ_iff, Nat.size_le]
  omega

/-- R335: seven places are enough to bring fifteen bits to eight. -/
theorem above8Bits_exits {v : Scaled} (h : v.m < 2 ^ 15) :
    above8Bits (whileLoop above8Bits Scaled.shr 7 v) = false := by
  refine whileLoop_exits (fun w => w.m.size - 8) (fun w hc => ?_) 7 v ?_
  · rw [above8Bits_iff] at hc
    have hwide : 8 < w.m.size := Nat.lt_size.2 (by omega)
    have hhalf : (w.m / 2).size < w.m.size := size_div_two_lt (by omega)
    rw [shr_m]
    omega
  · have hsize : v.m.size ≤ 15 := Nat.size_le.2 h
    omega

/-- R335: eight places are enough to bring eight bits to zero. -/
theorem belowNormal_exits {v : Scaled} (h : v.m < 2 ^ 8) :
    belowNormal (whileLoop belowNormal Scaled.shr 8 v) = false := by
  refine whileLoop_exits (fun w => w.m.size) (fun w hc => ?_) 8 v (Nat.size_le.2 h)
  rw [belowNormal_iff] at hc
  rw [shr_m]
  exact size_div_two_lt hc.2

/-- R246: the first loop of `finish` leaves eight bits. -/
theorem above8Bits_loop_m_lt {v : Scaled} (h : v.m < 2 ^ 15) :
    (whileLoop above8Bits Scaled.shr 7 v).m < 2 ^ 8 := by
  have hexit := above8Bits_exits h
  rw [← Bool.not_eq_true, above8Bits_iff] at hexit
  omega

/-- R246 to R249: after the shifts the biased exponent is 1 at least, or nothing of the mantissa is left. -/
theorem isNan_finish (sg : BitVec 1) {m : Nat} (e : Int) (h : m < 2 ^ 15) : isNan (finish sg m e) = false := by
  have hwidth := above8Bits_loop_m_lt (v := ⟨m, e⟩) h
  simp only [finish]
  generalize whileLoop above8Bits Scaled.shr 7 ⟨m, e⟩ = v at hwidth ⊢
  split
  · exact isNan_inf sg
  next htop =>
    have hexit := belowNormal_exits (v := ⟨v.m, v.e + 7⟩) hwidth
    have hhi : (whileLoop belowNormal Scaled.shr 8 ⟨v.m, v.e + 7⟩).e ≤ 14 := by
      refine whileLoop_invariant (P := fun w : Scaled => w.e ≤ 14) (fun w _ hc => ?_) 8 _ (by simpa using htop)
      rw [belowNormal_iff] at hc
      rw [shr_e]
      omega
    generalize whileLoop belowNormal Scaled.shr 8 ⟨v.m, v.e + 7⟩ = w at hexit hhi ⊢
    rw [← Bool.not_eq_true, belowNormal_iff] at hexit
    split
    · exact isNan_zero sg
    split <;> exact isNan_of_isFinite (isFinite_pack_ofInt (by omega) (by omega))

/-- R245: the product of two full mantissas, shifted up only while below `2^14`. -/
theorem normalizedProduct_m_lt (p q : CF) : (normalizedProduct p q).m < 2 ^ 16 := by
  refine whileLoop_invariant (P := fun w : Scaled => w.m < 2 ^ 16) (fun w _ hc => ?_) 14 _ ?_
  · rw [belowSquaredImplicit_iff] at hc
    rw [shl_m]
    omega
  · calc (fullMantissa p).toNat * (fullMantissa q).toNat < 2 ^ 8 * 2 ^ 8 :=
          Nat.mul_lt_mul'' (fullMantissa p).isLt (fullMantissa q).isLt
      _ = 2 ^ 16 := by norm_num

theorem isNan_mulFinite (sg : BitVec 1) (p q : CF) : isNan (mulFinite sg p q) = false := by
  have hlt := normalizedProduct_m_lt p q
  simp only [mulFinite]
  split
  · exact isNan_zero sg
  · exact isNan_finish sg _ (by rw [Nat.shiftRight_eq_div_pow]; omega)

/-- R267: the quotient has at most fifteen bits, and is shifted up only while below `2^7`. -/
theorem normalizedQuotient_m_lt (p q : CF) : (normalizedQuotient p q).m < 2 ^ 15 := by
  refine whileLoop_invariant (P := fun w : Scaled => w.m < 2 ^ 15) (fun w _ hc => ?_) 7 _ ?_
  · rw [belowImplicit_iff] at hc
    rw [shl_m]
    omega
  · have hp : (fullMantissa p).toNat < 2 ^ 8 := (fullMantissa p).isLt
    refine (Nat.div_le_self _ _).trans_lt ?_
    rw [Nat.shiftLeft_eq]
    omega

theorem isNan_divFinite (sg : BitVec 1) (p q : CF) : isNan (divFinite sg p q) = false := by
  unfold divFinite
  split
  · exact isNan_zero sg
  · exact isNan_finish sg _ (normalizedQuotient_m_lt p q)

/-! ### Narrowing a native number (45_from_fp32.md) -/

theorem isNan_narrow (s : BitVec 1) (full : Nat) (c : Int) : isNan (narrow s full c) = false := by
  have hdenormal (m : BitVec 7) : isNan (pack s 0#4 m) = false :=
    isNan_of_isFinite (isFinite_iff.2 (by rw [exponent_pack]; decide))
  unfold narrow
  split
  · exact isNan_inf s
  split
  · exact isNan_of_isFinite (isFinite_pack_ofInt (by omega) (by omega))
  split
  · exact hdenormal _
  simp only
  split
  · exact isNan_zero s
  · exact hdenormal _

/-! ### The one NaN -/

/-- R162: the result is no NaN, or it is `P_NAN12`. -/
def OneNan (cfg : Config) (r : CF) : Prop := isNan r = true → r = cfg.nan12

theorem oneNan_nan12 (cfg : Config) : OneNan cfg cfg.nan12 := fun _ => rfl

theorem oneNan_of_not_nan {cfg : Config} {r : CF} (h : isNan r = false) : OneNan cfg r :=
  fun h' => absurd h' (by simp [h])

theorem oneNan_add (cfg : Config) (p q : CF) : OneNan cfg (add cfg p q) := by
  unfold add
  split
  · exact oneNan_nan12 cfg
  next hnan =>
    simp only [Bool.or_eq_true, not_or, Bool.not_eq_true] at hnan
    obtain ⟨hp, hq⟩ := hnan
    split
    · split
      · exact oneNan_of_not_nan hp
      · exact oneNan_nan12 cfg
    split
    · exact oneNan_of_not_nan hp
    next hpinf =>
      split
      · exact oneNan_of_not_nan hq
      next hqinf =>
        rw [Bool.not_eq_true] at hpinf hqinf
        exact oneNan_of_not_nan
          (isNan_addFinite (isFinite_of_not_special hp hpinf) (isFinite_of_not_special hq hqinf))

theorem oneNan_subtract (cfg : Config) (p q : CF) : OneNan cfg (subtract cfg p q) := oneNan_add cfg p (negate q)

theorem oneNan_multiply (cfg : Config) (p q : CF) : OneNan cfg (multiply cfg p q) := by
  simp only [multiply]
  split
  · exact oneNan_nan12 cfg
  split
  · exact oneNan_of_not_nan (isNan_zero _)
  split
  · exact oneNan_of_not_nan (isNan_inf _)
  · exact oneNan_of_not_nan (isNan_mulFinite _ p q)

theorem oneNan_divide (cfg : Config) (p q : CF) : OneNan cfg (divide cfg p q) := by
  simp only [divide]
  split
  · exact oneNan_nan12 cfg
  split
  · split
    · exact oneNan_nan12 cfg
    · exact oneNan_of_not_nan (isNan_inf _)
  split
  · split
    · exact oneNan_nan12 cfg
    · exact oneNan_of_not_nan (isNan_inf _)
  split
  · exact oneNan_of_not_nan (isNan_zero _)
  · exact oneNan_of_not_nan (isNan_divFinite _ p q)

theorem oneNan_fromFp32 (cfg : Config) (w : Word) : OneNan cfg (fromFp32 cfg w) := by
  unfold fromFp32
  split
  · exact oneNan_nan12 cfg
  split
  · exact oneNan_of_not_nan (isNan_inf _)
  · exact oneNan_of_not_nan (isNan_narrow _ _ _)

end Sys2Proof.Machine
end

section
/-! PROOFS. Every step keeps the invariant: the parameters stay, and each kind of answer has its result format
(30_encoding.md R63 to R67). -/

namespace Sys2Proof.Machine

/-! ### The result formats of the answers -/

theorem answerCF_format {s t : State} {r : CF} (h : s.answerCF r = .next t) :
    t.err = false ∧ t.y.extractLsb' 12 20 = 0#20 := by
  rw [answer_eq_next h, setWidth_eq_append]
  exact ⟨rfl, BitVec.extractLsb'_append_eq_left⟩

theorem answerCF_operand {s t : State} {r : CF} (h : s.answerCF r = .next t) : cfOperand t.y = r := by
  rw [answer_eq_next h]
  exact cfOperand_setWidth r

theorem truthBit_high_bits (r : Bool) : ((BitVec.ofBool r).setWidth 32).extractLsb' 1 31 = 0#31 := by
  cases r <;> decide

theorem answerBool_format {s t : State} {r : Bool} (h : s.answerBool r = .next t) :
    t.err = false ∧ t.y.extractLsb' 1 31 = 0#31 := by
  rw [answer_eq_next h]
  exact ⟨rfl, truthBit_high_bits r⟩

theorem answerErr_format {s t : State} (h : s.answerErr = .next t) : t.err = true ∧ t.y = 0#32 := by
  rw [answer_eq_next h]
  exact ⟨rfl, rfl⟩

/-! ### The step -/

/-- The outputs of a command on the ports have its result format. -/
theorem outputsFormatted_of_exec {i : Instr} {s t : State} (hi : t.command = i) (h : exec i s = .next t) :
    OutputsFormatted t := by
  unfold OutputsFormatted
  rw [hi]
  cases i with
  | classify a b =>
    rw [answer_eq_next h]
    exact ⟨rfl, cfOperand_classWord _⟩
  | tofp32 a b =>
    obtain ⟨w, hw⟩ := toFp32_ok s.cfg (cfOperand a)
    rw [exec_tofp32_of_ok a b s hw] at h
    rw [answer_eq_next h]
  | eq a b | gt a b | lt a b => exact answerBool_format h
  | neg a b | abs a b | fromfp32 a b | add a b | sub a b | mul a b | div a b => exact answerCF_format h
  | reservedC a b | reservedD a b | reservedE a b | reservedF a b => exact answerErr_format h

/-- R162: the only NaN that FROMFP32, ADD, SUB, MUL and DIV deliver is `P_NAN12`. -/
theorem oneNan_of_exec {i : Instr} {s t : State} (hi : deliversOnlyNan12 i = true) (h : exec i s = .next t) :
    OneNan s.cfg (cfOperand t.y) := by
  cases i with
  | fromfp32 a b => exact answerCF_operand h ▸ oneNan_fromFp32 s.cfg a
  | add a b => exact answerCF_operand h ▸ oneNan_add s.cfg _ _
  | sub a b => exact answerCF_operand h ▸ oneNan_subtract s.cfg _ _
  | mul a b => exact answerCF_operand h ▸ oneNan_multiply s.cfg _ _
  | div a b => exact answerCF_operand h ▸ oneNan_divide s.cfg _ _
  | _ => exact absurd hi (by simp [deliversOnlyNan12])

/-- A step from legal parameters meets the invariant, whatever the outputs were before. -/
theorem inv_of_step {s t : State} (hlegal : s.cfg.legal = true) (h : step s = .next t) : Inv t := by
  have hcfg : t.cfg = s.cfg := by rw [step_frame h]
  have hcommand := step_command h
  refine ⟨by rwa [hcfg], outputsFormatted_of_exec hcommand h, fun hone => ?_⟩
  rw [hcommand] at hone
  rw [hcfg]
  exact oneNan_of_exec hone h

/-- Settles O6: of the invariant before, only the legal parameters are used. -/
theorem stepKeepsInvariant : Obligations.StepKeepsInvariant :=
  ⟨fun _ _ hinv h => inv_of_step hinv.legal h, fun _ _ => inv_of_step⟩

end Sys2Proof.Machine
end

section
/-! PROOFS. A well-formed line drives its command, which completes, and binds its target
(30_encoding.md R68). -/

namespace Sys2Proof.Machine

/-! ### The words that sources stand for -/

theorem sourceWord_pattern (cfg : Config) (env : Bindings) (wide : Bool) (v : CF) :
    sourceWord cfg env wide (.pattern v) = .ok (0#20 ++ v) := by
  rw [sourceWord, setWidth_eq_append]

theorem sourceWord_constant (cfg : Config) (env : Bindings) (wide : Bool) (c : NamedConstant) :
    sourceWord cfg env wide (.constant c) = .ok (0#20 ++ constantPattern cfg c) := by
  rw [sourceWord, setWidth_eq_append]

theorem sourceWord_name (cfg : Config) {env : Bindings} (wide : Bool) {n : Nat} :
    (∀ w, env.lookup n = some w → sourceWord cfg env wide (.name n) = .ok w) ∧
    (env.lookup n = none → sourceWord cfg env wide (.name n) = .error (.unboundName n)) := by
  constructor <;> intros <;> simp [sourceWord, *]

/-! ### The command of a line completes -/

theorem unaryCommand_code_lt (op : UnaryOp) (wa : Word) : (unaryCommand op wa).code.toNat < 12 := by
  cases op <;> simp [unaryCommand, Instr.code]

theorem binaryCommand_code_lt (op : BinaryOp) (wa wb : Word) : (binaryCommand op wa wb).code.toNat < 12 := by
  cases op <;> simp [binaryCommand, Instr.code]

/-- A line that spells the defined command `i` evaluates it on the ports that hold its encoding and binds its target
to the answer. -/
theorem runLine_binds {l : Line} {env : Bindings} {s : State} {i : Instr} (hl : lineCommand s.cfg env l = .ok i)
    (hi : i.code.toNat < 12) :
    ∃ y, Delivers i (s.present (encode i)) y false ∧
      runLine l env s = .ok (.next
        ((lineTarget l, y) :: env, { s.present (encode i) with y := y, err := false })) := by
  obtain ⟨y, hy⟩ := exec_answers_of_code_lt hi (s.present (encode i))
  exact ⟨y, hy, runLine_of_step hl ((step_present s i).trans hy)⟩

theorem runLine_unary {op : UnaryOp} {vd : Nat} {va : Source} {env : Bindings} {s : State}
    (hwf : (Line.unary op vd va).wellFormed (env.map Prod.fst) = true) :
    ∃ wa y, sourceWord s.cfg env (op == .fromfp32) va = .ok wa ∧
      Delivers (unaryCommand op wa) (s.present (encode (unaryCommand op wa))) y false ∧
      runLine (.unary op vd va) env s = .ok (.next
        ((vd, y) :: env, { s.present (encode (unaryCommand op wa)) with y := y, err := false })) := by
  simp only [Line.wellFormed, Bool.and_eq_true] at hwf
  obtain ⟨hallowed, hbound⟩ := hwf
  obtain ⟨wa, hwa⟩ := sourceWord_of_allowed s.cfg hallowed hbound
  obtain ⟨y, hy⟩ := runLine_binds (l := .unary op vd va) (by rw [lineCommand, hwa]) (unaryCommand_code_lt op wa)
  exact ⟨wa, y, hwa, hy⟩

theorem runLine_binary {op : BinaryOp} {vd : Nat} {va vb : Source} {env : Bindings} {s : State}
    (hwf : (Line.binary op vd va vb).wellFormed (env.map Prod.fst) = true) :
    ∃ wa wb y, sourceWord s.cfg env false va = .ok wa ∧ sourceWord s.cfg env false vb = .ok wb ∧
      Delivers (binaryCommand op wa wb) (s.present (encode (binaryCommand op wa wb))) y false ∧
      runLine (.binary op vd va vb) env s = .ok (.next
        ((vd, y) :: env, { s.present (encode (binaryCommand op wa wb)) with y := y, err := false })) := by
  simp only [Line.wellFormed, Bool.and_eq_true] at hwf
  obtain ⟨⟨⟨hallowedA, hboundA⟩, hallowedB⟩, hboundB⟩ := hwf
  obtain ⟨wa, hwa⟩ := sourceWord_of_allowed s.cfg hallowedA hboundA
  obtain ⟨wb, hwb⟩ := sourceWord_of_allowed s.cfg hallowedB hboundB
  obtain ⟨y, hy⟩ := runLine_binds (l := .binary op vd va vb) (by rw [lineCommand, hwa, hwb])
    (binaryCommand_code_lt op wa wb)
  exact ⟨wa, wb, y, hwa, hwb, hy⟩

/-- Settles O58: the sources by their cases, the words each mnemonic encodes to by unfolding `encode`, the lines because
a defined command completes. -/
theorem lineBindsResult : Obligations.LineBindsResult := by
  refine ⟨fun cfg env wide => ⟨fun n => (sourceWord_name cfg wide).1, fun n => (sourceWord_name cfg wide).2,
    sourceWord_pattern cfg env wide, sourceWord_constant cfg env wide, fun v => ⟨rfl, rfl⟩,
    fun negative digits places => ⟨rfl, rfl⟩⟩, fun wa wb => ?words,
    fun op vd va env s => runLine_unary, fun op vd va vb env s => runLine_binary⟩
  exact ⟨rfl, rfl, rfl, rfl, rfl, rfl, rfl, rfl, rfl, rfl, rfl, rfl⟩

end Sys2Proof.Machine
end

section
/-! PROOFS. A decimal literal is a nearest native float (30_encoding.md R68, 10_state.md R30). Magnitudes are counted in
units of `2^-149`, the smallest native one; `2^j` units is the spacing of the native floats next to the decimal. -/

namespace Sys2Proof.Machine

/-! ### Native magnitudes in units -/

/-- The magnitude of a native word in units of `2^-149` (R30). -/
def nativeUnits (w : Word) : ℕ :=
  if (fExponent w).toNat = 0 then (fMantissa w).toNat
  else (2 ^ 23 + (fMantissa w).toNat) * 2 ^ ((fExponent w).toNat - 1)

theorem fExponent_eq_zero_iff (w : Word) : fExponent w = 0#8 ↔ (fExponent w).toNat = 0 := BitVec.toNat_inj.symm

theorem nativeMagnitude_eq_units (w : Word) : nativeMagnitude w = (nativeUnits w : ℚ) / 2 ^ 149 := by
  rw [nativeMagnitude, nativeUnits]
  by_cases hzero : fExponent w = 0#8
  · rw [if_pos hzero, if_pos ((fExponent_eq_zero_iff w).1 hzero)]
    ring
  · rw [if_neg hzero, if_neg (mt (fExponent_eq_zero_iff w).2 hzero)]
    obtain ⟨e, he⟩ := Nat.exists_eq_add_one_of_ne_zero (mt (fExponent_eq_zero_iff w).2 hzero)
    rw [he, Nat.add_sub_cancel]
    push_cast
    ring

/-- The native floats from `2^(j+23)` units on are `2^j` units apart. -/
theorem nativeUnits_spacing (w : Word) (j : ℕ) :
    (∃ m, nativeUnits w = m * 2 ^ j) ∨ (0 < j ∧ nativeUnits w < 2 ^ 23 * 2 ^ j) := by
  have hm : (fMantissa w).toNat < 2 ^ 23 := (fMantissa w).isLt
  obtain rfl | hj := Nat.eq_zero_or_pos j
  · exact .inl ⟨nativeUnits w, by simp⟩
  rw [nativeUnits]
  split
  · exact .inr ⟨hj, hm.trans_le (Nat.le_mul_of_pos_right _ (Nat.two_pow_pos j))⟩
  obtain hle | hlt := le_or_gt j ((fExponent w).toNat - 1)
  · exact .inl ⟨_, by rw [mul_assoc, Nat.pow_sub_mul_pow 2 hle]⟩
  · refine .inr ⟨hj, ?_⟩
    obtain ⟨i, rfl⟩ := Nat.exists_eq_succ_of_ne_zero hj.ne'
    calc (2 ^ 23 + (fMantissa w).toNat) * 2 ^ ((fExponent w).toNat - 1)
        < 2 ^ 24 * 2 ^ ((fExponent w).toNat - 1) := Nat.mul_lt_mul_of_pos_right (by omega) (Nat.two_pow_pos _)
      _ ≤ 2 ^ 24 * 2 ^ i := Nat.mul_le_mul_left _ (Nat.pow_le_pow_right (by norm_num) (by omega))
      _ = 2 ^ 23 * 2 ^ (i + 1) := by ring

/-- R30: the fields of a word put together from a sign and 31 bits. -/
theorem native_fields_append (negative : Bool) {n : ℕ} (hn : n < 2 ^ 31) :
    fSign (BitVec.ofBool negative ++ BitVec.ofNat 31 n) = BitVec.ofBool negative ∧
    (fExponent (BitVec.ofBool negative ++ BitVec.ofNat 31 n)).toNat = n / 2 ^ 23 ∧
    (fMantissa (BitVec.ofBool negative ++ BitVec.ofNat 31 n)).toNat = n % 2 ^ 23 := by
  have hnat : (BitVec.ofBool negative ++ BitVec.ofNat 31 n).toNat = (BitVec.ofBool negative).toNat * 2 ^ 31 + n := by
    rw [BitVec.toNat_append, ← Nat.shiftLeft_add_eq_or_of_lt (BitVec.isLt _), BitVec.toNat_ofNat,
      Nat.mod_eq_of_lt hn, Nat.shiftLeft_eq]
  refine ⟨(BitVec.extractLsb'_append_eq_of_le le_rfl).trans BitVec.extractLsb'_eq_self, ?_, ?_⟩
  · rw [fExponent, BitVec.extractLsb'_toNat, hnat, Nat.shiftRight_eq_div_pow]
    omega
  · rw [fMantissa, BitVec.extractLsb'_toNat, hnat, Nat.shiftRight_eq_div_pow]
    omega

/-- A significand of `2^j` units, packed below exponent field `j + 1`, keeps its magnitude: where it has less than 24
bits the exponent field is 0, and where it is `2^24` it carries into the next one. -/
theorem nativeUnits_pack (negative : Bool) {j q : ℕ} (hlow : q < 2 ^ 23 → j = 0) (hhigh : q ≤ 2 ^ 24)
    (hn : j * 2 ^ 23 + q < 2 ^ 31) :
    nativeUnits (BitVec.ofBool negative ++ BitVec.ofNat 31 (j * 2 ^ 23 + q)) = q * 2 ^ j := by
  obtain ⟨-, hexp, hmant⟩ := native_fields_append negative hn
  rw [nativeUnits, hexp, hmant]
  obtain hq | hq | rfl : q < 2 ^ 23 ∨ (2 ^ 23 ≤ q ∧ q < 2 ^ 24) ∨ q = 2 ^ 24 := by omega
  · obtain rfl := hlow hq
    rw [if_pos (by omega)]
    omega
  · rw [if_neg (by omega), show (j * 2 ^ 23 + q) / 2 ^ 23 - 1 = j by omega,
      show 2 ^ 23 + (j * 2 ^ 23 + q) % 2 ^ 23 = q by omega]
  · rw [if_neg (by omega), show (j * 2 ^ 23 + 2 ^ 24) / 2 ^ 23 - 1 = j + 1 by omega,
      show 2 ^ 23 + (j * 2 ^ 23 + 2 ^ 24) % 2 ^ 23 = 2 ^ 23 by omega]
    ring

/-! ### The nearest integer to a quotient -/

theorem nearestQuotient_close (n : ℕ) {d : ℕ} (hd : 0 < d) : |(nearestQuotient n d : ℚ) - n / d| ≤ 1 / 2 := by
  have hdiv : d * (n / d) + n % d = n := Nat.div_add_mod n d
  have hmod : n % d < d := Nat.mod_lt n hd
  have hbounds : 2 * n ≤ 2 * (d * nearestQuotient n d) + d ∧ 2 * (d * nearestQuotient n d) ≤ 2 * n + d := by
    simp only [nearestQuotient]
    split
    · rw [Nat.mul_succ]
      omega
    · omega
  generalize nearestQuotient n d = q at hbounds ⊢
  obtain ⟨hlo, hhi⟩ : 2 * (n : ℚ) ≤ 2 * (d * q) + d ∧ 2 * ((d : ℚ) * q) ≤ 2 * n + d := by exact_mod_cast hbounds
  have hd' : (0 : ℚ) < d := by exact_mod_cast hd
  have hcancel : (n : ℚ) = n / d * d := (div_mul_cancel₀ _ hd'.ne').symm
  rw [abs_le]
  constructor <;> refine le_of_mul_le_mul_right ?_ hd' <;> linarith

/-- An integer within a half is as near as every integer. -/
theorem abs_sub_le_of_close {q : ℕ} {r : ℚ} (h : |(q : ℚ) - r| ≤ 1 / 2) (m : ℕ) :
    |(q : ℚ) - r| ≤ |(m : ℚ) - r| := by
  obtain rfl | hne := eq_or_ne m q
  · exact le_rfl
  have hapart : (1 : ℚ) ≤ |(m : ℚ) - q| := by
    exact_mod_cast Int.one_le_abs (sub_ne_zero.2 (Int.ofNat_inj.ne.2 hne))
  have htriangle : |(m : ℚ) - q| ≤ |(m : ℚ) - r| + |(q : ℚ) - r| := by
    rw [abs_sub_comm (q : ℚ) r]
    exact abs_sub_le _ _ _
  linarith

/-! ### The scale -/

theorem two_zpow_eq_div (k : ℤ) : (2 : ℚ) ^ k = 2 ^ k.toNat / 2 ^ (-k).toNat := by
  rw [← zpow_natCast, ← zpow_natCast, ← zpow_sub₀ two_ne_zero, Int.toNat_sub_toNat_neg]

theorem atLeastPow2_iff {num den : ℕ} (hden : 0 < den) (k : ℤ) :
    atLeastPow2 num den k = true ↔ (2 : ℚ) ^ k ≤ num / den := by
  rw [atLeastPow2, decide_eq_true_iff, two_zpow_eq_div,
    div_le_div_iff₀ (by positivity) (by exact_mod_cast hden), mul_comm den]
  exact_mod_cast Iff.rfl

/-- The difference of the binary logarithms is the logarithm of the quotient, or one more. -/
theorem log2_sub_log2_bounds {num den : ℕ} (hnum : num ≠ 0) (hden : den ≠ 0) :
    (2 : ℚ) ^ ((num.log2 : ℤ) - den.log2 - 1) ≤ num / den ∧
    (num : ℚ) / den < 2 ^ ((num.log2 : ℤ) - den.log2 + 1) := by
  have hden' : (0 : ℚ) < den := by exact_mod_cast Nat.pos_of_ne_zero hden
  have hnumLo : (2 : ℚ) ^ num.log2 ≤ num := by exact_mod_cast Nat.log2_self_le hnum
  have hdenLo : (2 : ℚ) ^ den.log2 ≤ den := by exact_mod_cast Nat.log2_self_le hden
  have hnumHi : (num : ℚ) < 2 ^ (num.log2 + 1) := by exact_mod_cast Nat.lt_log2_self
  have hdenHi : (den : ℚ) < 2 ^ (den.log2 + 1) := by exact_mod_cast Nat.lt_log2_self
  constructor
  · calc (2 : ℚ) ^ ((num.log2 : ℤ) - den.log2 - 1) = 2 ^ num.log2 / 2 ^ (den.log2 + 1) := by
          rw [sub_sub, zpow_sub₀ two_ne_zero]
          norm_cast
      _ ≤ num / den := by gcongr
  · calc (num : ℚ) / den < 2 ^ (num.log2 + 1) / 2 ^ den.log2 := by gcongr
      _ = 2 ^ ((num.log2 : ℤ) - den.log2 + 1) := by
          rw [sub_add_eq_add_sub, zpow_sub₀ two_ne_zero]
          norm_cast

/-- The scale is the floor of the binary logarithm, but at least that of the smallest normalized native float. -/
theorem nativeScale_spec {num den : ℕ} (hnum : num ≠ 0) (hden : den ≠ 0) :
    -126 ≤ nativeScale num den ∧ (num : ℚ) / den < 2 ^ (nativeScale num den + 1) ∧
    (-126 < nativeScale num den → (2 : ℚ) ^ nativeScale num den ≤ num / den) := by
  obtain ⟨hlo, hhi⟩ := log2_sub_log2_bounds hnum hden
  simp only [nativeScale]
  generalize (num.log2 : ℤ) - den.log2 = k at hlo hhi ⊢
  obtain ⟨f, hf, hflo, hfhi⟩ : ∃ f, (if atLeastPow2 num den k then k else k - 1) = f ∧
      (2 : ℚ) ^ f ≤ num / den ∧ (num : ℚ) / den < 2 ^ (f + 1) := by
    refine ⟨_, rfl, ?_⟩
    have hiff := atLeastPow2_iff (num := num) (Nat.pos_of_ne_zero hden) k
    split
    · next h => exact ⟨hiff.1 h, hhi⟩
    · next h => exact ⟨hlo, by rw [sub_add_cancel]; exact not_le.1 (mt hiff.2 h)⟩
  rw [hf]
  refine ⟨le_max_right _ _, hfhi.trans_le ?_, fun h => ?_⟩
  · exact zpow_le_zpow_right₀ one_le_two (by omega)
  · rwa [max_eq_left (by omega)]

/-! ### The significand -/

/-- The spacing of the native floats next to `num / den` is `2^j` units of `2^-149`. -/
def decimalSpacing (num den : ℕ) : ℕ := (nativeScale num den + 126).toNat

/-- The decimal `num / den` measured by that spacing. -/
def decimalScaled (num den : ℕ) : ℚ := num / den * 2 ^ (23 - nativeScale num den)

/-- The multiple of that spacing that `nearestFp32` takes. -/
def decimalSignificand (num den : ℕ) : ℕ :=
  nearestQuotient (num * 2 ^ (23 - nativeScale num den).toNat) (den * 2 ^ (nativeScale num den - 23).toNat)

section
variable {num den : ℕ} (hnum : num ≠ 0) (hden : den ≠ 0)

include hnum in
theorem nearestFp32_eq (negative : Bool) : nearestFp32 negative num den = BitVec.ofBool negative ++
    BitVec.ofNat 31 (min (decimalSpacing num den * 2 ^ 23 + decimalSignificand num den) 0x7F800000) := by
  simp only [nearestFp32, if_neg hnum, decimalSpacing, decimalSignificand]

include hden in
theorem decimalSignificand_close : |(decimalSignificand num den : ℚ) - decimalScaled num den| ≤ 1 / 2 := by
  have hscaled : decimalScaled num den = ((num * 2 ^ (23 - nativeScale num den).toNat : ℕ) : ℚ) /
      ((den * 2 ^ (nativeScale num den - 23).toNat : ℕ) : ℚ) := by
    rw [decimalScaled, two_zpow_eq_div, neg_sub, div_mul_div_comm]
    push_cast
    rfl
  rw [hscaled]
  exact nearestQuotient_close _ (Nat.mul_pos (Nat.pos_of_ne_zero hden) (Nat.two_pow_pos _))

include hnum hden in
theorem decimalScaled_bounds : decimalScaled num den < 2 ^ 24 ∧
    (decimalSpacing num den ≠ 0 → 2 ^ 23 ≤ decimalScaled num den) := by
  obtain ⟨hmin, hlt, hle⟩ := nativeScale_spec hnum hden
  rw [decimalScaled, decimalSpacing]
  generalize nativeScale num den = k at hmin hlt hle ⊢
  constructor
  · calc (num : ℚ) / den * 2 ^ (23 - k) < 2 ^ (k + 1) * 2 ^ (23 - k) := by gcongr
      _ = 2 ^ 24 := by
          rw [← zpow_add₀ two_ne_zero, show k + 1 + (23 - k) = (24 : ℕ) by push_cast; ring, zpow_natCast]
  · intro hj
    calc (2 : ℚ) ^ 23 = 2 ^ k * 2 ^ (23 - k) := by rw [← zpow_add₀ two_ne_zero]; norm_num
      _ ≤ num / den * 2 ^ (23 - k) := by gcongr; exact hle (by omega)

include hnum hden in
theorem decimalScaled_mul_spacing :
    (num : ℚ) / den = decimalScaled num den * 2 ^ decimalSpacing num den / 2 ^ 149 := by
  have hmin := (nativeScale_spec hnum hden).1
  have hpow : (2 : ℚ) ^ decimalSpacing num den = 2 ^ (nativeScale num den + 126) := by
    rw [← zpow_natCast, decimalSpacing, Int.toNat_of_nonneg (by omega)]
  have hsum : 23 - nativeScale num den + (nativeScale num den + 126) = (149 : ℕ) := by push_cast; ring
  rw [decimalScaled, hpow, mul_assoc, ← zpow_add₀ two_ne_zero, hsum, zpow_natCast,
    mul_div_cancel_right₀ _ (by positivity)]

include hnum hden in
theorem decimalSignificand_bounds : decimalSignificand num den ≤ 2 ^ 24 ∧
    (decimalSpacing num den ≠ 0 → 2 ^ 23 ≤ decimalSignificand num den) := by
  obtain ⟨hlo, hhi⟩ := abs_le.1 (decimalSignificand_close (num := num) hden)
  obtain ⟨hlt, hle⟩ := decimalScaled_bounds hnum hden
  constructor
  · refine Nat.lt_succ_iff.1 ?_
    have : (decimalSignificand num den : ℚ) < 2 ^ 24 + 1 := by linarith
    exact_mod_cast this
  · intro hj
    have : (2 : ℚ) ^ 23 < decimalSignificand num den + 1 := by linarith [hle hj]
    exact Nat.lt_succ_iff.1 (by exact_mod_cast this)

include hnum hden in
/-- Below `2^128 - 2^103` no rounding reaches the pattern of an Infinity. -/
theorem decimal_in_range (h : num < (2 ^ 128 - 2 ^ 103) * den) :
    decimalSpacing num den * 2 ^ 23 + decimalSignificand num den < 0x7F800000 := by
  have hden' : (0 : ℚ) < den := by exact_mod_cast Nat.pos_of_ne_zero hden
  have hmax : (num : ℚ) / den < 2 ^ 128 - 2 ^ 103 := by
    have hcast : (num : ℚ) < (2 ^ 128 - 2 ^ 103 : ℕ) * den := by exact_mod_cast h
    rw [div_lt_iff₀ hden']
    norm_num at hcast ⊢
    exact hcast
  obtain ⟨hmin, hlt, hle⟩ := nativeScale_spec hnum hden
  have hscale : nativeScale num den ≤ 127 := by
    by_contra hbig
    have hpow : (2 : ℚ) ^ (128 : ℤ) ≤ 2 ^ nativeScale num den := zpow_le_zpow_right₀ one_le_two (by omega)
    have := hpow.trans (hle (by omega))
    norm_num at this hmax
    linarith
  have hj : decimalSpacing num den = 253 → decimalSignificand num den < 2 ^ 24 := by
    intro hj
    have hk : nativeScale num den = 127 := by rw [decimalSpacing] at hj; omega
    have hscaled : decimalScaled num den < 2 ^ 24 - 1 / 2 := by
      rw [decimalScaled, hk]
      norm_num at hmax ⊢
      linarith
    have hq := (abs_le.1 (decimalSignificand_close (num := num) hden)).2
    have : (decimalSignificand num den : ℚ) < 2 ^ 24 := by linarith
    exact_mod_cast this
  have hq := (decimalSignificand_bounds hnum hden).1
  have : decimalSpacing num den ≤ 253 := by rw [decimalSpacing]; omega
  omega

include hnum hden in
/-- Among all native magnitudes that of the significand is nearest: a magnitude on the spacing is another multiple of
it, and one off the spacing lies below `2^23` times the spacing, which is a multiple at most the decimal. -/
theorem decimalSignificand_nearest (z : Word) :
    |(decimalSignificand num den : ℚ) * 2 ^ decimalSpacing num den / 2 ^ 149 - num / den| ≤
      |nativeMagnitude z - num / den| := by
  have hclose := abs_sub_le_of_close (decimalSignificand_close (num := num) hden)
  rw [decimalScaled_mul_spacing hnum hden, nativeMagnitude_eq_units, ← sub_div, ← sub_div, abs_div, abs_div]
  refine div_le_div_of_nonneg_right ?_ (abs_nonneg _)
  obtain ⟨m, hm⟩ | ⟨hj, hm⟩ := nativeUnits_spacing z (decimalSpacing num den)
  · rw [hm, Nat.cast_mul, Nat.cast_pow, Nat.cast_ofNat, ← sub_mul, ← sub_mul, abs_mul, abs_mul]
    exact mul_le_mul_of_nonneg_right (hclose m) (abs_nonneg _)
  · have hfloor := (decimalScaled_bounds hnum hden).2 hj.ne'
    have hpow : (0 : ℚ) < 2 ^ decimalSpacing num den := by positivity
    have hz : (nativeUnits z : ℚ) ≤ 2 ^ 23 * 2 ^ decimalSpacing num den := by exact_mod_cast hm.le
    have hnear : |(decimalSignificand num den : ℚ) - decimalScaled num den| ≤ decimalScaled num den - 2 ^ 23 := by
      refine (hclose (2 ^ 23)).trans_eq ?_
      rw [Nat.cast_pow, Nat.cast_ofNat, abs_sub_comm, abs_of_nonneg (sub_nonneg.2 hfloor)]
    calc |(decimalSignificand num den : ℚ) * 2 ^ decimalSpacing num den
          - decimalScaled num den * 2 ^ decimalSpacing num den|
        = |(decimalSignificand num den : ℚ) - decimalScaled num den| * 2 ^ decimalSpacing num den := by
          rw [← sub_mul, abs_mul, abs_of_pos hpow]
      _ ≤ (decimalScaled num den - 2 ^ 23) * 2 ^ decimalSpacing num den := by gcongr
      _ ≤ decimalScaled num den * 2 ^ decimalSpacing num den - nativeUnits z := by linarith
      _ ≤ |(nativeUnits z : ℚ) - decimalScaled num den * 2 ^ decimalSpacing num den| := by
          rw [abs_sub_comm]
          exact le_abs_self _

end

/-! ### The signed word -/

theorem nativeMagnitude_nonneg (w : Word) : 0 ≤ nativeMagnitude w := by
  rw [nativeMagnitude_eq_units]
  positivity

theorem abs_nativeValue (w : Word) : |nativeValue w| = nativeMagnitude w := by
  rw [nativeValue]
  split
  · exact abs_of_nonneg (nativeMagnitude_nonneg w)
  · rw [abs_neg, abs_of_nonneg (nativeMagnitude_nonneg w)]

/-- A word of the written sign is as far from a signed number as its magnitude is from the number's. -/
theorem abs_nativeValue_sub_signed {w : Word} {negative : Bool} (hsign : fSign w = BitVec.ofBool negative) (c : ℚ) :
    |nativeValue w - (if negative then -1 else 1) * c| = |nativeMagnitude w - c| := by
  rw [nativeValue, hsign]
  cases negative with
  | false => simp
  | true =>
    rw [if_neg (by decide), if_pos rfl, neg_one_mul, ← neg_sub', abs_neg]

theorem abs_signed {negative : Bool} {c : ℚ} (hc : 0 ≤ c) : |(if negative then -1 else 1) * c| = c := by
  cases negative <;> simpa using hc

/-- A decimal in range becomes its sign and a number below the pattern of an Infinity, with a nearest magnitude. -/
theorem nearestFp32_spec (negative : Bool) {num den : ℕ} (hden : den ≠ 0) (h : num < (2 ^ 128 - 2 ^ 103) * den) :
    ∃ n < 0x7F800000, nearestFp32 negative num den = BitVec.ofBool negative ++ BitVec.ofNat 31 n ∧
      ∀ z, |nativeMagnitude (nearestFp32 negative num den) - num / den| ≤ |nativeMagnitude z - num / den| := by
  by_cases hnum : num = 0
  · subst hnum
    have hword : nearestFp32 negative 0 den = BitVec.ofBool negative ++ BitVec.ofNat 31 0 := rfl
    have hunits : nativeUnits (BitVec.ofBool negative ++ BitVec.ofNat 31 0) = 0 :=
      nativeUnits_pack negative (j := 0) (q := 0) (fun _ => rfl) (by norm_num) (by norm_num)
    refine ⟨0, by norm_num, hword, fun z => ?_⟩
    rw [hword, nativeMagnitude_eq_units, hunits]
    simp
  · have hlt := decimal_in_range hnum hden h
    obtain ⟨hhigh, hlow⟩ := decimalSignificand_bounds hnum hden
    have hword := nearestFp32_eq hnum (den := den) negative
    rw [min_eq_left hlt.le] at hword
    refine ⟨_, hlt, hword, fun z => ?_⟩
    have hunits := nativeUnits_pack negative (j := decimalSpacing num den) (q := decimalSignificand num den)
      (fun hq => not_not.1 fun hj => absurd (hlow hj) (by omega)) hhigh (by omega)
    rw [hword, nativeMagnitude_eq_units (_ ++ _), hunits]
    push_cast
    exact decimalSignificand_nearest hnum hden z

/-- Settles O59: the signs agree, so the distance of the values is that of the magnitudes, and no native float is
nearer to a number than its magnitude is to the number's. -/
theorem decimalLiteralIsNearest : Obligations.DecimalLiteralIsNearest := by
  intro negative digits places hrange x w
  obtain ⟨n, hn, hword, hnearest⟩ := nearestFp32_spec negative (Nat.pow_pos (by norm_num)).ne' hrange
  obtain ⟨hsign, hexp, -⟩ := native_fields_append negative (n := n) (by omega)
  rw [← hword] at hsign hexp
  push_cast at hnearest
  refine ⟨hsign, fun h255 => ?_, fun z _ => ?_⟩
  · rw [h255] at hexp
    norm_num at hexp
    omega
  · have hx : x = (if negative then -1 else 1) * ((digits : ℚ) / 10 ^ places) := mul_div_assoc _ _ _
    calc |nativeValue w - x| = |nativeMagnitude w - (digits : ℚ) / 10 ^ places| := by
          rw [hx, abs_nativeValue_sub_signed hsign]
      _ ≤ |nativeMagnitude z - (digits : ℚ) / 10 ^ places| := hnearest z
      _ = |(|nativeValue z|) - (|x|)| := by rw [abs_nativeValue, hx, abs_signed (by positivity)]
      _ ≤ |nativeValue z - x| := abs_abs_sub_abs_le _ _

end Sys2Proof.Machine
end

section
/-! PROOFS. The builders on the native float word (40_fp32_fields.md R96 to R98). -/

namespace Sys2Proof.Machine

/-! ### A native word put together from its three fields -/

/-- R92, R93, R95: the accessors read back what a word is put together from. -/
theorem fields_append (s : BitVec 1) (e : BitVec 8) (m : BitVec 23) :
    fSign (s ++ e ++ m) = s ∧ fExponent (s ++ e ++ m) = e ∧ fMantissa (s ++ e ++ m) = m := by
  have hhigh (start len : ℕ) : (s ++ e ++ m).extractLsb' (23 + start) len = (s ++ e).extractLsb' start len := by
    rw [BitVec.extractLsb'_append_eq_of_le (Nat.le_add_right ..), Nat.add_sub_cancel_left]
  refine ⟨?sign, ?exponent, BitVec.extractLsb'_append_eq_right⟩
  case sign => exact (hhigh 8 1).trans BitVec.extractLsb'_append_eq_left
  case exponent => exact (hhigh 0 8).trans BitVec.extractLsb'_append_eq_right

/-! ### Each builder in terms of the fields -/

/-- R96: only the sign is new. -/
theorem withSign_eq (w : Word) (s : BitVec 1) : withSign w s = s ++ fExponent w ++ fMantissa w := by
  have hlow : fExponent w ++ fMantissa w = w.extractLsb' 0 31 :=
    BitVec.extractLsb'_append_extractLsb'_eq_extractLsb' rfl
  rw [BitVec.append_assoc, hlow]
  rfl

/-- R97 inside the range: only the exponent is new. -/
theorem withUnbiasedExponent_eq {w : Word} {e : Int} (hlo : -126 ≤ e) (hhi : e ≤ 127) :
    withUnbiasedExponent w e = .ok (fSign w ++ BitVec.ofInt 8 (e + 127) ++ fMantissa w) :=
  withUnbiasedExponent_of_inRange hlo hhi

/-- R98 inside the range: only the mantissa is new. -/
theorem withMantissa_eq {w : Word} {m : Nat} (h : m < 2 ^ 23) :
    withMantissa w m = .ok (fSign w ++ fExponent w ++ BitVec.ofNat 23 m) := by
  have hhigh : fSign w ++ fExponent w = w.extractLsb' 23 9 :=
    BitVec.extractLsb'_append_extractLsb'_eq_extractLsb' rfl
  rw [withMantissa_of_lt h, hhigh]

/-- R97 outside the range. -/
theorem withUnbiasedExponent_of_outOfRange (w : Word) {e : Int} (h : e < -126 ∨ 127 < e) :
    withUnbiasedExponent w e = .error (.rangeError e) :=
  if_pos h

/-- R98 outside the range. -/
theorem withMantissa_of_le (w : Word) {m : Nat} (h : 2 ^ 23 ≤ m) : withMantissa w m = .error (.rangeError m) :=
  if_pos h

/-- The biased exponent of R97 fits its eight bits. -/
theorem toNat_biasedExponent {e : Int} (hlo : -126 ≤ e) (hhi : e ≤ 127) :
    ((BitVec.ofInt 8 (e + 127)).toNat : Int) = e + 127 := by
  rw [BitVec.toNat_ofInt]
  omega

/-- Settles O29: each builder puts its word together from one new field and two of the old ones, and the accessors read
these back. -/
theorem builderRangeErrors : Obligations.BuilderRangeErrors := by
  refine ⟨fun w s => ?sign, fun w _ => withUnbiasedExponent_of_outOfRange w, fun w e hlo hhi => ?exponent,
    fun w _ => withMantissa_of_le w, fun w m hm => ?mantissa⟩
  case sign =>
    rw [withSign_eq]
    exact fields_append ..
  case exponent =>
    obtain ⟨hsign, hexp, hmant⟩ := fields_append (fSign w) (BitVec.ofInt 8 (e + 127)) (fMantissa w)
    exact ⟨_, withUnbiasedExponent_eq hlo hhi, hsign, by rw [hexp, toNat_biasedExponent hlo hhi], hmant⟩
  case mantissa =>
    obtain ⟨hsign, hexp, hmant⟩ := fields_append (fSign w) (fExponent w) (BitVec.ofNat 23 m)
    exact ⟨_, withMantissa_eq hm, hsign, hexp, by rw [hmant, BitVec.toNat_ofNat, Nat.mod_eq_of_lt hm]⟩

end Sys2Proof.Machine
end

section
/-! PROOFS. The predicates as ranges of patterns, and the relations among them (41_classifier.md R125, R126). -/

namespace Sys2Proof.Machine

/-! ### Each predicate on the number of the pattern -/

/-- R111: the exponent field as a digit of the pattern. -/
theorem exponent_toNat (x : CF) : (exponent x).toNat = x.toNat / 128 % 16 := by
  have hmantissa : (mantissa x).toNat < 128 := (mantissa x).isLt
  have hexponent : (exponent x).toNat < 16 := (exponent x).isLt
  have := toNat_eq_fields x
  omega

theorem exponent_eq_max_iff_toNat {x : CF} : exponent x = 15#4 ↔ x.toNat / 128 % 16 = 15 := by
  rw [← BitVec.toNat_inj, exponent_toNat, BitVec.toNat_ofNat]

theorem exponent_eq_zero_iff_toNat {x : CF} : exponent x = 0#4 ↔ x.toNat / 128 % 16 = 0 := by
  rw [exponent_eq_zero_iff, exponent_toNat]

/-- R112: the mantissa field is clear exactly in the multiples of 128. -/
theorem mantissa_eq_zero_iff_toNat {x : CF} : mantissa x = 0#7 ↔ x.toNat % 128 = 0 := by
  have hmantissa : (mantissa x).toNat < 128 := (mantissa x).isLt
  have := toNat_eq_fields x
  rw [← BitVec.toNat_inj, BitVec.toNat_ofNat]
  omega

theorem isNan_iff_toNat {x : CF} :
    isNan x = true ↔ (0x781 ≤ x.toNat ∧ x.toNat ≤ 0x7FF) ∨ (0xF81 ≤ x.toNat ∧ x.toNat ≤ 0xFFF) := by
  have hlt : x.toNat < 4096 := x.isLt
  rw [isNan_iff, Ne, exponent_eq_max_iff_toNat, mantissa_eq_zero_iff_toNat]
  omega

theorem isPositiveInfinity_iff_toNat {x : CF} : isPositiveInfinity x = true ↔ x.toNat = 0x780 :=
  isPositiveInfinity_iff.trans BitVec.toNat_inj.symm

theorem isNegativeInfinity_iff_toNat {x : CF} : isNegativeInfinity x = true ↔ x.toNat = 0xF80 :=
  isNegativeInfinity_iff.trans BitVec.toNat_inj.symm

theorem isDenormalized_iff {x : CF} : isDenormalized x = true ↔ exponent x = 0#4 := beq_iff_eq

theorem isDenormalized_iff_toNat {x : CF} :
    isDenormalized x = true ↔ x.toNat ≤ 0x07F ∨ (0x800 ≤ x.toNat ∧ x.toNat ≤ 0x87F) := by
  have hlt : x.toNat < 4096 := x.isLt
  rw [isDenormalized_iff, exponent_eq_zero_iff_toNat]
  omega

theorem isPositiveZero_iff_toNat {x : CF} : isPositiveZero x = true ↔ x.toNat = 0x000 :=
  beq_iff_eq.trans BitVec.toNat_inj.symm

theorem isNegativeZero_iff_toNat {x : CF} : isNegativeZero x = true ↔ x.toNat = 0x800 :=
  beq_iff_eq.trans BitVec.toNat_inj.symm

theorem isZero_iff_toNat {x : CF} : isZero x = true ↔ x.toNat = 0x000 ∨ x.toNat = 0x800 := by
  have hlt : x.toNat < 4096 := x.isLt
  rw [isZero_iff, exponent_eq_zero_iff_toNat, mantissa_eq_zero_iff_toNat]
  omega

/-- Settles O15: the exponent and mantissa fields are digits of the pattern. -/
theorem predicateTable : Obligations.PredicateTable := fun _ =>
  ⟨isNan_iff_toNat, isPositiveInfinity_iff_toNat, isNegativeInfinity_iff_toNat, isDenormalized_iff_toNat,
    isPositiveZero_iff_toNat, isNegativeZero_iff_toNat, isZero_iff_toNat⟩

/-! ### The relations -/

theorem isZero_eq_or (x : CF) : isZero x = (isPositiveZero x || isNegativeZero x) := by
  rw [Bool.eq_iff_iff, Bool.or_eq_true, isZero_iff_toNat, isPositiveZero_iff_toNat, isNegativeZero_iff_toNat]

/-- R125: the ranges of the four classes are disjoint. -/
theorem classes_exclusive (x : CF) :
    [isNan x, isPositiveInfinity x, isNegativeInfinity x, isDenormalized x].Pairwise
      (fun u v => (u && v) = false) := by
  simp only [List.pairwise_cons, List.Pairwise.nil, List.forall_mem_cons, List.not_mem_nil, Bool.and_eq_true,
    ← Bool.not_eq_true, isNan_iff_toNat, isPositiveInfinity_iff_toNat, isNegativeInfinity_iff_toNat,
    isDenormalized_iff_toNat, false_imp_iff, implies_true, and_true]
  omega

/-- R125: what the four classes leave is the normalized patterns. -/
theorem no_class_iff (x : CF) :
    (isNan x = false ∧ isPositiveInfinity x = false ∧ isNegativeInfinity x = false ∧ isDenormalized x = false) ↔
      1 ≤ (exponent x).toNat ∧ (exponent x).toNat ≤ 14 := by
  have hlt : x.toNat < 4096 := x.isLt
  simp only [← Bool.not_eq_true, isNan_iff_toNat, isPositiveInfinity_iff_toNat, isNegativeInfinity_iff_toNat,
    isDenormalized_iff_toNat, exponent_toNat]
  omega

/-- R7: the constraint on `P_NAN12` is that it is a NaN. -/
theorem isNan_nan12_of_legal {cfg : Config} (h : cfg.legal = true) : isNan cfg.nan12 = true :=
  (Bool.and_eq_true_iff.1 h).1

/-- Settles O14: among patterns by their ranges, and for `P_NAN12` by the constraint on it. -/
theorem predicateRelations : Obligations.PredicateRelations := by
  refine ⟨fun x => ⟨fun hzero => isDenormalized_iff.2 (isZero_iff.1 hzero).1, isZero_eq_or x, ?_,
    classes_exclusive x, no_class_iff x⟩, fun _ => isNan_nan12_of_legal⟩
  rw [isPositiveZero_iff_toNat, isNegativeZero_iff_toNat]
  omega

end Sys2Proof.Machine
end

section
/-! PROOFS. The comparator orders the patterns by one whole number, the signed magnitude bits; EQ, GT and LT, their
values and the pre-order of 42_compare.md R147 are read off that number. -/

namespace Sys2Proof.Machine

/-! ### The low eleven bits of a pattern (R146) -/

/-- `x[10:0]`, the hardware form of the magnitude key (R146). -/
def magnitudeBits (x : CF) : BitVec 11 := x.extractLsb' 0 11

@[simp] theorem magnitudeBits_cfOperand (port : Word) : magnitudeBits (cfOperand port) = port.extractLsb' 0 11 :=
  BitVec.extractLsb'_extractLsb'_of_le (by decide)

/-- The exponent field, then the mantissa field. -/
theorem toNat_magnitudeBits (x : CF) :
    (magnitudeBits x).toNat = (exponent x).toNat * 128 + (mantissa x).toNat := by
  have hlow : exponent x ++ mantissa x = magnitudeBits x := BitVec.extractLsb'_append_extractLsb'_eq_extractLsb' rfl
  have hlt : (mantissa x).toNat < 2 ^ 7 := (mantissa x).isLt
  rw [← hlow, BitVec.toNat_append, ← Nat.shiftLeft_add_eq_or_of_lt hlt, Nat.shiftLeft_eq]

/-- The mantissa field decides only between equal exponent fields. -/
theorem magnitudeBits_lt_iff {p q : CF} : (magnitudeBits p).toNat < (magnitudeBits q).toNat ↔
    (exponent p).toNat < (exponent q).toNat ∨ exponent p = exponent q ∧ (mantissa p).toNat < (mantissa q).toNat := by
  have hp : (mantissa p).toNat < 128 := (mantissa p).isLt
  have hq : (mantissa q).toNat < 128 := (mantissa q).isLt
  rw [toNat_magnitudeBits, toNat_magnitudeBits, ← BitVec.toNat_inj]
  omega

/-- R145, R146: the lexicographic order of the keys is the unsigned order of the low eleven bits, because at equal
exponent fields the full mantissas are the stored ones plus one constant. -/
theorem lexLess_key_iff {p q : CF} :
    lexLess (key p) (key q) = true ↔ (magnitudeBits p).toNat < (magnitudeBits q).toNat := by
  rw [magnitudeBits_lt_iff, lexLess, decide_eq_true_iff, key, key, BitVec.toNat_inj]
  refine or_congr_right (and_congr_right fun hexp => ?_)
  rw [fullMantissa_toNat, fullMantissa_toNat, hexp, Nat.add_lt_add_iff_left]

theorem isZero_iff_magnitudeBits {x : CF} : isZero x = true ↔ (magnitudeBits x).toNat = 0 := by
  rw [isZero_iff, exponent_eq_zero_iff, ← BitVec.toNat_inj (x := mantissa x), BitVec.toNat_ofNat, toNat_magnitudeBits]
  omega

theorem magnitudeBits_of_isInfinity {x : CF} (h : isInfinity x = true) : (magnitudeBits x).toNat = 0x780 := by
  simp only [isInfinity, Bool.and_eq_true, beq_iff_eq] at h
  obtain ⟨hexp, hmant⟩ := h
  rw [toNat_magnitudeBits, hexp, hmant]
  rfl

/-- A pattern is its sign and its low eleven bits. -/
theorem eq_iff_sign_magnitudeBits {p q : CF} :
    p = q ↔ sign p = sign q ∧ (magnitudeBits p).toNat = (magnitudeBits q).toNat := by
  have happend (x : CF) : sign x ++ magnitudeBits x = x :=
    (BitVec.extractLsb'_append_extractLsb'_eq_extractLsb' rfl).trans BitVec.extractLsb'_eq_self
  refine ⟨fun h => h ▸ ⟨rfl, rfl⟩, fun ⟨hsign, hbits⟩ => ?_⟩
  rw [← happend p, ← happend q, hsign, BitVec.eq_of_toNat_eq hbits]

/-! ### The rank of a pattern, and the operations on ranks -/

/-- The low eleven bits with the sign of the pattern: equal for the two zeros, and otherwise different for different
patterns. -/
def rank (x : CF) : ℤ := if sign x = 0#1 then (magnitudeBits x).toNat else -(magnitudeBits x).toNat

/-- R146: ranks compare by the signs (two zeros excepted), then by the low eleven bits. -/
theorem rank_lt_iff {p q : CF} : rank q < rank p ↔
    if sign p = sign q then
      (if sign p = 0#1 then (magnitudeBits q).toNat < (magnitudeBits p).toNat
        else (magnitudeBits p).toNat < (magnitudeBits q).toNat)
    else sign p = 0#1 ∧ ¬(isZero p = true ∧ isZero q = true) := by
  rw [isZero_iff_magnitudeBits, isZero_iff_magnitudeBits]
  obtain hp | hp := BitVec.eq_zero_or_eq_one (sign p) <;> obtain hq | hq := BitVec.eq_zero_or_eq_one (sign q)
  all_goals
    simp only [rank, hp, hq, BitVec.reduceEq, if_true, if_false, true_and, false_and, iff_false]
    omega

/-- Equal ranks are equal patterns or two zeros. -/
theorem rank_eq_iff {p q : CF} : rank p = rank q ↔ p = q ∨ isZero p = true ∧ isZero q = true := by
  rw [eq_iff_sign_magnitudeBits, isZero_iff_magnitudeBits, isZero_iff_magnitudeBits]
  obtain hp | hp := BitVec.eq_zero_or_eq_one (sign p) <;> obtain hq | hq := BitVec.eq_zero_or_eq_one (sign q)
  all_goals
    simp only [rank, hp, hq, BitVec.reduceEq, if_true, if_false, true_and, false_and, false_or]
    omega

/-! ### EQ, GT and LT on patterns (R140 to R142) -/

/-- R140 and R141: with a NaN neither comparison is true. -/
theorem compare_of_isNan {p q : CF} (h : isNan p = true ∨ isNan q = true) :
    equals p q = false ∧ greaterThan p q = false := by
  rw [← Bool.or_eq_true] at h
  exact ⟨if_pos h, if_pos h⟩

/-- R140 without a NaN. -/
theorem equals_iff_rank {p q : CF} (hp : isNan p = false) (hq : isNan q = false) :
    equals p q = true ↔ rank p = rank q := by
  rw [rank_eq_iff]
  by_cases hpq : p = q <;> simp [equals, hp, hq, hpq]

/-- R141 without a NaN; as R141 says of its order of tests, two infinities need no rule of their own. -/
theorem greaterThan_iff_rank {p q : CF} (hp : isNan p = false) (hq : isNan q = false) :
    greaterThan p q = true ↔ rank q < rank p := by
  unfold greaterThan
  rw [if_neg (by simp [hp, hq])]
  split
  · next hinf =>
    obtain ⟨hpinf, hqinf⟩ := Bool.and_eq_true_iff.1 hinf
    rw [rank, rank, magnitudeBits_of_isInfinity hpinf, magnitudeBits_of_isInfinity hqinf]
    obtain hsp | hsp := BitVec.eq_zero_or_eq_one (sign p) <;> obtain hsq | hsq := BitVec.eq_zero_or_eq_one (sign q)
    all_goals simp [hsp, hsq]
  · rw [rank_lt_iff, ← lexLess_key_iff, ← lexLess_key_iff]
    obtain hsp | hsp := BitVec.eq_zero_or_eq_one (sign p) <;> obtain hsq | hsq := BitVec.eq_zero_or_eq_one (sign q)
    all_goals simp [hsp, hsq, imp_iff_not_or]

/-- A comparison that is false with a NaN, and without one has the truth value of `r`. -/
theorem ordered_iff {p q : CF} {c : Bool} {r : Prop} (hnan : isNan p = true ∨ isNan q = true → c = false)
    (hr : isNan p = false → isNan q = false → (c = true ↔ r)) :
    c = true ↔ isNan p = false ∧ isNan q = false ∧ r := by
  constructor
  · intro hc
    have hp : isNan p = false := Bool.eq_false_iff.2 fun h => by simp [hnan (.inl h)] at hc
    have hq : isNan q = false := Bool.eq_false_iff.2 fun h => by simp [hnan (.inr h)] at hc
    exact ⟨hp, hq, (hr hp hq).1 hc⟩
  · rintro ⟨hp, hq, h⟩
    exact (hr hp hq).2 h

theorem equals_iff {p q : CF} :
    equals p q = true ↔ isNan p = false ∧ isNan q = false ∧ rank p = rank q :=
  ordered_iff (fun h => (compare_of_isNan h).1) equals_iff_rank

theorem greaterThan_iff {p q : CF} :
    greaterThan p q = true ↔ isNan p = false ∧ isNan q = false ∧ rank q < rank p :=
  ordered_iff (fun h => (compare_of_isNan h).2) greaterThan_iff_rank

/-! ### The pre-order (R147) -/

/-- The comparisons as tests on ranks, for rewriting. -/
theorem equals_eq_decide {p q : CF} (hp : isNan p = false) (hq : isNan q = false) :
    equals p q = decide (rank p = rank q) :=
  Bool.eq_iff_iff.2 ((equals_iff_rank hp hq).trans decide_eq_true_iff.symm)

theorem greaterThan_eq_decide {p q : CF} (hp : isNan p = false) (hq : isNan q = false) :
    greaterThan p q = decide (rank q < rank p) :=
  Bool.eq_iff_iff.2 ((greaterThan_iff_rank hp hq).trans decide_eq_true_iff.symm)

theorem greaterThan_or_equals_iff {p q : CF} (hp : isNan p = false) (hq : isNan q = false) :
    (greaterThan p q || equals p q) = true ↔ rank q ≤ rank p := by
  rw [Bool.or_eq_true, greaterThan_iff_rank hp hq, equals_iff_rank hp hq, eq_comm, le_iff_lt_or_eq]

/-- Settles O22: the ranks are linearly ordered, and only the zeros share one. -/
theorem comparatorTrichotomy : Obligations.ComparatorTrichotomy := by
  refine ⟨fun p q hp hq => ⟨?one, fun heq hne => ?zeros⟩, fun p q hp hq => ?total, fun p q r hp hq hr => ?trans⟩
  case one =>
    rw [lessThan, equals_eq_decide hp hq, greaterThan_eq_decide hp hq, greaterThan_eq_decide hq hp]
    obtain h | h | h := lt_trichotomy (rank p) (rank q)
    · simp [h, h.ne, h.not_gt]
    · simp [h]
    · simp [h, h.ne', h.not_gt]
  case zeros => exact (rank_eq_iff.1 ((equals_iff_rank hp hq).1 heq)).resolve_left hne
  case total =>
    rw [greaterThan_or_equals_iff hp hq, greaterThan_or_equals_iff hq hp]
    exact le_total (rank q) (rank p)
  case trans =>
    rw [greaterThan_or_equals_iff hp hq, greaterThan_or_equals_iff hq hr, greaterThan_or_equals_iff hp hr]
    exact fun hqp hrq => hrq.trans hqp

/-! ### EQ, GT and LT as commands -/

/-- Settles O23: the NaN test is the first of every comparison. -/
theorem nanIsUnordered : Obligations.NanIsUnordered := by
  intro a b s h
  obtain ⟨heq, hgt⟩ := compare_of_isNan h
  obtain ⟨-, hlt⟩ := compare_of_isNan h.symm
  exact ⟨(exec_eq a b s).trans (by rw [heq]; rfl), (exec_gt a b s).trans (by rw [hgt]; rfl),
    (exec_lt a b s).trans (by rw [lessThan, hlt]; rfl)⟩

/-- Settles O18: equal ranks, with the patterns and zeros read on the bits of the ports. -/
theorem eqResult : Obligations.EqResult := by
  intro a b s
  refine deliversBool_of_answerBool (exec_eq a b s) ?_
  rw [equals_iff, rank_eq_iff, isZero_cfOperand_iff, isZero_cfOperand_iff]
  rfl

/-- Settles O19: the order of ranks, with signs and magnitudes read on the bits of the ports. -/
theorem gtResult : Obligations.GtResult := by
  intro a b s
  refine deliversBool_of_answerBool (exec_gt a b s) ?_
  rw [greaterThan_iff, rank_lt_iff, sign_cfOperand, sign_cfOperand, magnitudeBits_cfOperand, magnitudeBits_cfOperand,
    isZero_cfOperand_iff, isZero_cfOperand_iff]

/-- Settles O20: by the definition of LT, and by the ranks where no operand is a NaN. -/
theorem ltIsGtExchanged : Obligations.LtIsGtExchanged := by
  refine fun a b s => ⟨(exec_lt a b s).trans (exec_gt b a s).symm,
    deliversBool_of_answerBool (exec_lt a b s) Iff.rfl,
    fun ha hb => deliversBool_of_answerBool (exec_lt a b s) ?_⟩
  rw [lessThan, greaterThan_iff_rank hb ha, ← Bool.or_eq_true, greaterThan_or_equals_iff ha hb, not_le]

/-! ### Ranks and values (R146) -/

theorem magnitudeUnits_congr {p q : CF} (h : (magnitudeBits p).toNat = (magnitudeBits q).toNat) :
    magnitudeUnits p = magnitudeUnits q := by
  have hp : (mantissa p).toNat < 128 := (mantissa p).isLt
  have hq : (mantissa q).toNat < 128 := (mantissa q).isLt
  rw [toNat_magnitudeBits, toNat_magnitudeBits] at h
  have hexp : exponent p = exponent q := BitVec.eq_of_toNat_eq (by omega)
  have hmant : (mantissa p).toNat = (mantissa q).toNat := by omega
  rw [magnitudeUnits, magnitudeUnits, fullMantissa_toNat, fullMantissa_toNat, hexp, hmant]

/-- R24: the magnitudes are in the order of the low eleven bits. -/
theorem magnitudeUnits_lt_iff {p q : CF} :
    magnitudeUnits p < magnitudeUnits q ↔ (magnitudeBits p).toNat < (magnitudeBits q).toNat := by
  obtain h | h | h := lt_trichotomy (magnitudeBits p).toNat (magnitudeBits q).toNat
  · exact iff_of_true (magnitudeUnits_lt_of_fields (magnitudeBits_lt_iff.1 h)) h
  · exact iff_of_false (magnitudeUnits_congr h).not_lt h.not_lt
  · exact iff_of_false (magnitudeUnits_lt_of_fields (magnitudeBits_lt_iff.1 h)).not_gt h.not_gt

/-- Only the zeros have magnitude 0. -/
theorem magnitudeUnits_pos_iff {x : CF} : 0 < magnitudeUnits x ↔ 0 < (magnitudeBits x).toNat :=
  magnitudeUnits_lt_iff (p := 0x000#12)

/-- R24: the values, with the formula of the finite patterns read on every pattern, are in the order of the ranks. -/
theorem value_lt_iff {p q : CF} : value p < value q ↔ rank p < rank q := by
  have hpq := magnitudeUnits_lt_iff (p := p) (q := q)
  have hqp := magnitudeUnits_lt_iff (p := q) (q := p)
  have hp := magnitudeUnits_pos_iff (x := p)
  have hq := magnitudeUnits_pos_iff (x := q)
  rw [value_eq_units, value_eq_units, div_lt_div_iff_of_pos_right (by norm_num), Int.cast_lt, rank, rank]
  split <;> split <;> omega

theorem rank_bounds_of_isFinite {x : CF} (h : isFinite x = true) : -0x780 < rank x ∧ rank x < 0x780 := by
  have hexp := exponent_le_of_isFinite h
  have hmant : (mantissa x).toNat < 128 := (mantissa x).isLt
  rw [rank, toNat_magnitudeBits]
  split <;> omega

/-- R146: the infinities are the ends of the extended line, and have the extreme ranks. -/
theorem extendedValue_cases {x : CF} (h : isNan x = false) :
    extendedValue x = ⊤ ∧ rank x = 0x780 ∨ extendedValue x = ⊥ ∧ rank x = -0x780 ∨
      extendedValue x = (value x : WithTop ℚ) ∧ -0x780 < rank x ∧ rank x < 0x780 := by
  unfold extendedValue
  split
  · next hpos => exact .inl ⟨rfl, by rw [isPositiveInfinity_iff.1 hpos]; rfl⟩
  split
  · next hneg => exact .inr (.inl ⟨rfl, by rw [isNegativeInfinity_iff.1 hneg]; rfl⟩)
  · next hpos hneg =>
    have hfinite : isFinite x = true := by
      have hlt : x.toNat < 4096 := x.isLt
      rw [← Bool.not_eq_true, isNan_iff_toNat] at h
      rw [isPositiveInfinity_iff_toNat] at hpos
      rw [isNegativeInfinity_iff_toNat] at hneg
      rw [isFinite_iff, Ne, exponent_eq_max_iff_toNat]
      omega
    exact .inr (.inr ⟨rfl, rank_bounds_of_isFinite hfinite⟩)

/-- R146: values, infinities included, are in the order of the ranks: of the nine pairs of an end of the line or a
finite value, only two finite values need more than the ends. -/
theorem extendedValue_lt_iff {p q : CF} (hp : isNan p = false) (hq : isNan q = false) :
    extendedValue p < extendedValue q ↔ rank p < rank q := by
  have hcoe_lt_top (c : ℚ) : ((c : WithTop ℚ) : WithBot (WithTop ℚ)) < ⊤ :=
    WithBot.coe_lt_coe.2 (WithTop.coe_lt_top c)
  obtain ⟨hvp, hrp⟩ | ⟨hvp, hrp⟩ | ⟨hvp, hrp⟩ := extendedValue_cases hp <;>
    obtain ⟨hvq, hrq⟩ | ⟨hvq, hrq⟩ | ⟨hvq, hrq⟩ := extendedValue_cases hq
  case inr.inr.inr.inr => rw [hvp, hvq, WithBot.coe_lt_coe, WithTop.coe_lt_coe, value_lt_iff]
  all_goals
    simp only [hvp, hvq, not_top_lt, not_lt_bot, bot_lt_top, WithBot.bot_lt_coe, hcoe_lt_top, true_iff, false_iff]
    omega

theorem extendedValue_eq_iff {p q : CF} (hp : isNan p = false) (hq : isNan q = false) :
    extendedValue p = extendedValue q ↔ rank p = rank q := by
  rw [eq_iff_le_not_lt, ← not_lt, extendedValue_lt_iff hp hq, extendedValue_lt_iff hq hp, not_lt, ← eq_iff_le_not_lt]

/-- Settles O21: keys and values are both in the order of the ranks. -/
theorem comparatorOrdersValues : Obligations.ComparatorOrdersValues := by
  refine fun a b s ha hb => ⟨?key, deliversBool_of_answerBool (exec_gt a b s) ?gt,
    deliversBool_of_answerBool (exec_eq a b s) ?eq, deliversBool_of_answerBool (exec_lt a b s) ?lt⟩
  case key => rw [lexLess_key_iff, magnitudeBits_cfOperand, magnitudeBits_cfOperand]
  case gt => rw [greaterThan_iff_rank ha hb, extendedValue_lt_iff hb ha]
  case eq => rw [equals_iff_rank ha hb, extendedValue_eq_iff ha hb]
  case lt => rw [lessThan, greaterThan_iff_rank hb ha, extendedValue_lt_iff ha hb]

end Sys2Proof.Machine
end

section
/-! PROOFS. The sign unit on the two parts of a pattern, its sign and its low eleven bits; NEG and ABS (43_unary.md
R160, R161) are read off these parts on the bits of the port. -/

namespace Sys2Proof.Machine

theorem sign_append_magnitudeBits (x : CF) : sign x ++ magnitudeBits x = x :=
  (BitVec.extractLsb'_append_extractLsb'_eq_extractLsb' rfl).trans BitVec.extractLsb'_eq_self

/-- R160: the mask of NEG is all ones on the sign and zero on the rest. -/
theorem negate_eq_append (x : CF) : negate x = ~~~sign x ++ magnitudeBits x :=
  calc negate x = (sign x ++ magnitudeBits x) ^^^ (BitVec.allOnes 1 ++ 0#11) := by
        rw [sign_append_magnitudeBits]; rfl
    _ = (sign x ^^^ BitVec.allOnes 1) ++ (magnitudeBits x ^^^ 0#11) := BitVec.xor_append
    _ = ~~~sign x ++ magnitudeBits x := by rw [BitVec.xor_allOnes, BitVec.xor_zero]

theorem absolute_of_isNan {x : CF} (h : isNan x = true) : absolute x = x := if_pos h

/-- R161: the mask of ABS is zero on the sign and all ones on the rest. -/
theorem absolute_eq_append {x : CF} (h : isNan x = false) : absolute x = 0#1 ++ magnitudeBits x :=
  calc absolute x = x &&& 0x7FF#12 := if_neg (ne_true_of_eq_false h)
    _ = (sign x ++ magnitudeBits x) &&& (0#1 ++ BitVec.allOnes 11) := by
        rw [sign_append_magnitudeBits]; rfl
    _ = (sign x &&& 0#1) ++ (magnitudeBits x &&& BitVec.allOnes 11) := BitVec.and_append
    _ = 0#1 ++ magnitudeBits x := by rw [BitVec.and_zero, BitVec.and_allOnes]

/-- Settles O24: the two parts of the negated operand, read on the bits of the port. -/
theorem negResult : Obligations.NegResult := by
  intro a b s
  rw [deliversCF_iff, exec_neg, negate_eq_append, sign_cfOperand, magnitudeBits_cfOperand]

/-- Settles O25: a NaN comes back whole; of any other operand the low eleven bits remain. -/
theorem absResult : Obligations.AbsResult := by
  refine fun a b s => ⟨fun hnan => ?nan, fun hnumber => ?number⟩
  case nan => rw [deliversCF_iff, exec_abs, absolute_of_isNan hnan, cfOperand]
  case number => rw [deliversCF_iff, exec_abs, absolute_eq_append hnumber, magnitudeBits_cfOperand]

end Sys2Proof.Machine
end

section
/-! PROOFS. TOFP32 in closed form, in range and exact (44_to_fp32.md R179 to R181). The loop of R175 is the one left
shift that takes the mantissa's highest set bit to bit 23; the rest is read off what the builders are then given. -/

namespace Sys2Proof.Machine

/-! ### The loop of R175 -/

/-- The loop condition of R175 on a value of at most 24 bits. -/
theorem bit23Clear_iff {v : Scaled} (h : v.m < 2 ^ 24) : bit23Clear v = true ↔ v.m < 2 ^ 23 := by
  rw [bit23Clear, Bool.not_eq_true', Nat.testBit_eq_decide_div_mod_eq, decide_eq_false_iff_not]
  omega

/-- A value that `j` places bring to exactly 24 bits is moved up by these `j` places. -/
theorem whileLoop_bit23Clear {j n : ℕ} (hj : j ≤ n) {v : Scaled} (hlo : 2 ^ 23 ≤ v.m * 2 ^ j)
    (hhi : v.m * 2 ^ j < 2 ^ 24) : whileLoop bit23Clear Scaled.shl n v = ⟨v.m * 2 ^ j, v.e - j⟩ := by
  induction j generalizing n v with
  | zero =>
    rw [pow_zero, mul_one] at hlo hhi ⊢
    have hset : bit23Clear v = false := by
      rw [← Bool.not_eq_true, bit23Clear_iff hhi]
      omega
    rw [whileLoop_of_false hset, Nat.cast_zero, sub_zero]
  | succ j ih =>
    obtain ⟨n, rfl⟩ := Nat.exists_eq_add_one_of_ne_zero (Nat.ne_zero_of_lt hj)
    have hshift : v.shl.m * 2 ^ j = v.m * 2 ^ (j + 1) := by
      rw [shl_m]
      ring
    have hclear : v.m < 2 ^ 23 := by
      have := Nat.le_mul_of_pos_right v.shl.m (Nat.two_pow_pos j)
      rw [hshift, shl_m] at this
      omega
    rw [whileLoop_succ, if_pos ((bit23Clear_iff (by omega)).2 hclear),
      ih (by omega) (by rwa [hshift]) (by rwa [hshift]), hshift, shl_e]
    congr 1
    push_cast
    ring

/-! ### What the builders are given -/

/-- The highest set bit of the mantissa is one of its seven. -/
theorem log2_mantissa_le (x : CF) : (mantissa x).toNat.log2 ≤ 6 := by
  obtain h0 | hne := eq_or_ne (mantissa x).toNat 0
  · simp [h0]
  · exact Nat.lt_succ_iff.1 ((Nat.log2_lt hne).2 (mantissa x).isLt)

/-- The mantissa moved up until its highest set bit is bit 23, the native implicit-bit position. -/
def shiftedMantissa (x : CF) : ℕ := (mantissa x).toNat * 2 ^ (23 - (mantissa x).toNat.log2)

/-- The shift may be made in two parts. -/
theorem mantissa_mul_pow_mul_pow {x : CF} {i j : ℕ} (h : i + j + (mantissa x).toNat.log2 = 23) :
    (mantissa x).toNat * 2 ^ i * 2 ^ j = shiftedMantissa x := by
  rw [shiftedMantissa, mul_assoc, ← pow_add, Nat.eq_sub_of_add_eq h]

theorem shiftedMantissa_mul_pow (x : CF) :
    shiftedMantissa x * 2 ^ (mantissa x).toNat.log2 = (mantissa x).toNat * 2 ^ 23 := by
  have hk := log2_mantissa_le x
  rw [shiftedMantissa, mul_assoc, Nat.pow_sub_mul_pow 2 (by omega)]

/-- A nonzero mantissa so moved has exactly 24 bits. -/
theorem shiftedMantissa_bounds {x : CF} (h : mantissa x ≠ 0#7) :
    2 ^ 23 ≤ shiftedMantissa x ∧ shiftedMantissa x < 2 ^ 24 := by
  have hne : (mantissa x).toNat ≠ 0 := fun h0 => h (BitVec.eq_of_toNat_eq h0)
  have hpos := Nat.two_pow_pos (mantissa x).toNat.log2
  constructor
  · refine Nat.le_of_mul_le_mul_right ?_ hpos
    rw [shiftedMantissa_mul_pow, mul_comm]
    exact Nat.mul_le_mul_right _ (Nat.log2_self_le hne)
  · refine Nat.lt_of_mul_lt_mul_right (a := 2 ^ (mantissa x).toNat.log2) ?_
    have hlt : (mantissa x).toNat < 2 ^ ((mantissa x).toNat.log2 + 1) := Nat.lt_log2_self
    rw [shiftedMantissa_mul_pow]
    omega

/-- R174, R175: a nonzero denormal is moved up to bit 23, which is then cleared. -/
theorem fp32Parts_of_denormal {x : CF} (hexp : exponent x = 0#4) (hmant : mantissa x ≠ 0#7) :
    fp32Parts x = ⟨shiftedMantissa x % 2 ^ 23, (mantissa x).toNat.log2 - 13⟩ := by
  have hk := log2_mantissa_le x
  obtain ⟨hlo, hhi⟩ := shiftedMantissa_bounds hmant
  have hwiden : widen x = ⟨(mantissa x).toNat * 2 ^ 16, -6⟩ := by
    rw [widen, Nat.shiftLeft_eq, unbiasedExponent, if_pos hexp]
  have hplaces : (mantissa x).toNat * 2 ^ 16 * 2 ^ (7 - (mantissa x).toNat.log2) = shiftedMantissa x :=
    mantissa_mul_pow_mul_pow (by omega)
  have hloop : whileLoop bit23Clear Scaled.shl 7 (widen x) =
      ⟨shiftedMantissa x, (mantissa x).toNat.log2 - 13⟩ := by
    rw [hwiden, whileLoop_bit23Clear (Nat.sub_le ..) (by rwa [hplaces]) (by rwa [hplaces]), hplaces,
      Nat.cast_sub (by omega)]
    congr 1
    push_cast
    ring
  rw [fp32Parts, if_pos hexp, unpackDenormal, hloop]
  exact congrArg (Scaled.mk · _) (Nat.and_two_pow_sub_one_eq_mod _ 23)

/-- R174: the mantissa and exponent of a normalized operand are final. -/
theorem fp32Parts_of_normalized {x : CF} (hfin : isFinite x = true) (hexp : exponent x ≠ 0#4) :
    fp32Parts x = ⟨(mantissa x).toNat * 2 ^ 16, (exponent x).toNat - 7⟩ := by
  rw [fp32Parts, if_neg hexp, widen, Nat.shiftLeft_eq, unbiasedExponent, if_neg hexp, if_neg (isFinite_iff.1 hfin)]

theorem mantissa_ne_zero_of_denormal {x : CF} (hzero : isZero x = false) (hexp : exponent x = 0#4) :
    mantissa x ≠ 0#7 := by
  simpa [isZero, hexp] using hzero

/-- R180: for a finite nonzero operand the builders' arguments are in range. -/
theorem fp32Parts_inRange_of_finite {x : CF} (hfin : isFinite x = true) (hzero : isZero x = false) :
    -13 ≤ (fp32Parts x).e ∧ (fp32Parts x).e ≤ 7 ∧ (fp32Parts x).m < 2 ^ 23 := by
  obtain ⟨hlo, -, hm⟩ := fp32Parts_inRange x
  refine ⟨hlo, ?_, hm⟩
  by_cases hexp : exponent x = 0#4
  · have hk := log2_mantissa_le x
    rw [fp32Parts_of_denormal hexp (mantissa_ne_zero_of_denormal hzero hexp)]
    simp only
    omega
  · have hE := exponent_le_of_isFinite hfin
    rw [fp32Parts_of_normalized hfin hexp]
    simp only
    omega

/-- Settles O28: the range is R180's, and TOFP32 completes because its builders succeed. -/
theorem buildersStayInRange : Obligations.BuildersStayInRange := by
  refine ⟨fun x => fp32Parts_inRange_of_finite, fun a b s => ?_⟩
  obtain ⟨w, hw⟩ := toFp32_ok s.cfg (cfOperand a)
  exact ⟨w, exec_tofp32_of_ok a b s hw⟩

/-! ### The word the builders compose -/

/-- R176 to R178: with arguments in range, the word has exactly these fields. -/
theorem composeFp32_eq {s : BitVec 1} {v : Scaled} (hlo : -126 ≤ v.e) (hhi : v.e ≤ 127) (hm : v.m < 2 ^ 23) :
    composeFp32 s v = .ok (s ++ BitVec.ofInt 8 (v.e + 127) ++ BitVec.ofNat 23 v.m) := by
  obtain ⟨hsign, hexp, -⟩ := fields_append s (BitVec.ofInt 8 (v.e + 127)) (fMantissa (withSign 0#32 s))
  have hsign0 : fSign (withSign 0#32 s) = s := by
    rw [withSign_eq]
    exact (fields_append ..).1
  rw [composeFp32, withUnbiasedExponent_eq hlo hhi, hsign0]
  simp only
  rw [withMantissa_eq hm, hsign, hexp]

/-- Seven mantissa bits above sixteen zeros. -/
theorem append_zeros_mantissa (s : BitVec 1) (e : BitVec 8) (n : ℕ) :
    (s ++ e ++ BitVec.ofNat 7 n ++ 0#16 : Word) = s ++ e ++ BitVec.ofNat 23 (n * 2 ^ 16) := by
  have hlow : BitVec.ofNat 7 n ++ 0#16 = BitVec.ofNat 23 (n * 2 ^ 16) := by
    apply BitVec.eq_of_toNat_eq
    simp only [BitVec.toNat_append, BitVec.toNat_ofNat, Nat.zero_mod, Nat.or_zero, Nat.shiftLeft_eq]
    omega
  rw [BitVec.append_assoc, hlow]
  rfl

/-- R179, in the form of the builders: the closed form composes what they are given. -/
theorem toFp32Closed_of_nonzero (cfg : Config) {x : CF} (hfin : isFinite x = true) (hzero : isZero x = false) :
    toFp32Closed cfg x =
      sign x ++ BitVec.ofInt 8 ((fp32Parts x).e + 127) ++ BitVec.ofNat 23 (fp32Parts x).m := by
  have hinf : isInfinity x = false := by simp [isInfinity, isFinite_iff.1 hfin]
  simp only [toFp32Closed, isNan_of_isFinite hfin, hinf, hzero, Bool.false_eq_true, if_false]
  split
  case isTrue hexp =>
    have hk := log2_mantissa_le x
    have hraw : ((mantissa x).toNat.log2 - 13 + 127 : ℤ) = (114 + (mantissa x).toNat.log2 : ℕ) := by omega
    rw [fp32Parts_of_denormal hexp (mantissa_ne_zero_of_denormal hzero hexp), append_zeros_mantissa,
      mantissa_mul_pow_mul_pow (by omega), hraw, BitVec.ofInt_natCast, ← BitVec.toNat_ofNat, BitVec.ofNat_toNat,
      BitVec.setWidth_eq]
  case isFalse hexp =>
    have hraw : ((exponent x).toNat - 7 + 127 : ℤ) = ((exponent x).toNat + 120 : ℕ) := by omega
    rw [fp32Parts_of_normalized hfin hexp, hraw, BitVec.ofInt_natCast, ← append_zeros_mantissa, BitVec.ofNat_toNat,
      BitVec.setWidth_eq]

/-- R179: the steps R171 to R178 give the closed form. -/
theorem toFp32_eq_closed (cfg : Config) (x : CF) : toFp32 cfg x = .ok (toFp32Closed cfg x) := by
  rw [toFp32]
  split_ifs with hnan hinf hzero
  · rw [toFp32Closed, if_pos hnan]
  · rw [toFp32Closed, if_neg hnan, if_pos hinf]
  · rw [toFp32Closed, if_neg hnan, if_neg hinf, if_pos hzero]
  · rw [Bool.not_eq_true] at hnan hinf hzero
    obtain ⟨hlo, hhi, hm⟩ := fp32Parts_inRange x
    rw [composeFp32_eq (by omega) (by omega) hm,
      toFp32Closed_of_nonzero cfg (isFinite_of_not_special hnan hinf) hzero]

/-- Settles O26: the closed form is what the steps of R170 compute. -/
theorem toFp32Result : Obligations.ToFp32Result :=
  fun a b s => exec_tofp32_of_ok a b s (toFp32_eq_closed s.cfg (cfOperand a))

/-! ### The word has the value of the operand -/

/-- The builders' mantissa with its implicit bit, at the builders' exponent, is the operand's magnitude. -/
theorem fp32Parts_units {x : CF} (hfin : isFinite x = true) (hzero : isZero x = false) :
    (2 ^ 23 + (fp32Parts x).m) * 2 ^ ((fp32Parts x).e + 13).toNat = magnitudeUnits x * 2 ^ 23 := by
  rw [magnitudeUnits, fullMantissa_toNat]
  by_cases hexp : exponent x = 0#4
  · have hmant := mantissa_ne_zero_of_denormal hzero hexp
    obtain ⟨hlo, hhi⟩ := shiftedMantissa_bounds hmant
    rw [fp32Parts_of_denormal hexp hmant]
    simp only [hexp, if_true, sub_add_cancel, Int.toNat_natCast]
    rw [show 2 ^ 23 + shiftedMantissa x % 2 ^ 23 = shiftedMantissa x by omega, shiftedMantissa_mul_pow]
    simp
  · obtain ⟨E, hE⟩ := Nat.exists_eq_add_one_of_ne_zero (mt (exponent_eq_zero_iff x).2 hexp)
    rw [fp32Parts_of_normalized hfin hexp, if_neg hexp]
    simp only [hE]
    rw [show ((E + 1 : ℕ) - 7 + 13 : ℤ).toNat = E + 7 by omega, Nat.add_sub_cancel]
    ring

/-- The fields of the word a zero becomes (R173). -/
theorem fields_append_zeros (s : BitVec 1) :
    fSign (s ++ 0#31) = s ∧ fExponent (s ++ 0#31) = 0#8 ∧ fMantissa (s ++ 0#31) = 0#23 := by
  have hword : s ++ 0#31 = s ++ 0#8 ++ 0#23 := by
    rw [BitVec.append_assoc]
    rfl
  rw [hword]
  exact fields_append ..

/-- R181: of a finite nonzero operand the word has the sign, the biased exponent of the builders, which is not 0, and
the magnitude: `2^136` native units of `2^-149` are one unit of `2^-13`. -/
theorem toFp32Closed_fields_of_nonzero (cfg : Config) {x : CF} (hfin : isFinite x = true) (hzero : isZero x = false) :
    fSign (toFp32Closed cfg x) = sign x ∧
    ((fExponent (toFp32Closed cfg x)).toNat : ℤ) = (fp32Parts x).e + 127 ∧
    nativeUnits (toFp32Closed cfg x) = magnitudeUnits x * 2 ^ 136 := by
  obtain ⟨hlo, hhi, hm⟩ := fp32Parts_inRange_of_finite hfin hzero
  obtain ⟨hsign, hexp, hmant⟩ := fields_append (sign x) (BitVec.ofInt 8 ((fp32Parts x).e + 127))
    (BitVec.ofNat 23 (fp32Parts x).m)
  rw [← toFp32Closed_of_nonzero cfg hfin hzero] at hsign hexp hmant
  have hraw : ((fExponent (toFp32Closed cfg x)).toNat : ℤ) = (fp32Parts x).e + 127 := by
    rw [hexp, toNat_biasedExponent (by omega) (by omega)]
  refine ⟨hsign, hraw, ?_⟩
  rw [nativeUnits, if_neg (by omega), hmant, BitVec.toNat_ofNat, Nat.mod_eq_of_lt hm,
    show (fExponent (toFp32Closed cfg x)).toNat - 1 = ((fp32Parts x).e + 13).toNat + 113 by omega, pow_add,
    ← mul_assoc, fp32Parts_units hfin hzero]
  ring

/-- R181: the word of a finite operand, a zero or not, has its sign and its magnitude. -/
theorem toFp32Closed_exact (cfg : Config) {x : CF} (hfin : isFinite x = true) :
    fSign (toFp32Closed cfg x) = sign x ∧ nativeUnits (toFp32Closed cfg x) = magnitudeUnits x * 2 ^ 136 := by
  cases hzero : isZero x with
  | true =>
    obtain ⟨hexp, hmant⟩ := isZero_iff.1 hzero
    obtain ⟨hsign, hexp', hmant'⟩ := fields_append_zeros (sign x)
    have hword : toFp32Closed cfg x = sign x ++ 0#31 := by
      simp [toFp32Closed, isNan_of_isFinite hfin, isInfinity, hzero, hexp]
    rw [hword, nativeUnits, hexp', hmant', magnitudeUnits, fullMantissa_toNat, hexp, hmant]
    exact ⟨hsign, rfl⟩
  | false =>
    obtain ⟨hsign, -, hunits⟩ := toFp32Closed_fields_of_nonzero cfg hfin hzero
    exact ⟨hsign, hunits⟩

/-- Settles O27: signs and magnitudes agree; a denormal's builder exponent is `k - 13` for its highest set bit `k`. -/
theorem toFp32Exact : Obligations.ToFp32Exact := by
  intro a b s hfin
  obtain ⟨hsign, hunits⟩ := toFp32Closed_exact s.cfg hfin
  refine ⟨_, toFp32Result a b s, ?value, hsign, fun hexp hmant => ?denormal⟩
  case value =>
    rw [nativeValue, value, hsign, nativeMagnitude_eq_units, magnitude_eq_units, hunits,
      show ((magnitudeUnits (cfOperand a) * 2 ^ 136 : ℕ) : ℚ) / 2 ^ 149 = magnitudeUnits (cfOperand a) / 2 ^ 13 by
        push_cast; ring]
  case denormal =>
    have hzero : isZero (cfOperand a) = false := by simp [isZero, hmant]
    have hk := log2_mantissa_le (cfOperand a)
    obtain ⟨-, hraw, -⟩ := toFp32Closed_fields_of_nonzero s.cfg hfin hzero
    rw [fp32Parts_of_denormal hexp hmant] at hraw
    simp only at hraw
    omega

end Sys2Proof.Machine
end

section
/-! PROOFS. FROMFP32 in closed form (45_from_fp32.md R200). The loop of R198 is one right shift by what the candidate
exponent lacks to 0: each round keeps the mantissa it would end with. -/

namespace Sys2Proof.Machine

/-! ### The loop of R198 -/

theorem belowBoundary_iff {v : Scaled} : belowBoundary v = true ↔ v.e < 0 ∧ v.m ≠ 0 := decide_eq_true_iff

/-- The mantissa once the exponent is raised to 0. -/
def mantissaAtZero (v : Scaled) : ℕ := v.m / 2 ^ (-v.e).toNat

/-- A place right and an exponent more, below the boundary, leave the mantissa at exponent 0 the same. -/
theorem mantissaAtZero_shr {v : Scaled} (h : v.e < 0) : mantissaAtZero v.shr = mantissaAtZero v := by
  have hplaces : (-v.e).toNat = (-v.shr.e).toNat + 1 := by
    rw [shr_e]
    omega
  rw [mantissaAtZero, mantissaAtZero, shr_m, Nat.div_div_eq_div_mul, hplaces, pow_succ']

/-- R335: 24 rounds are enough for a mantissa of 24 bits. -/
theorem belowBoundary_exits {v : Scaled} (h : v.m < 2 ^ 24) :
    belowBoundary (whileLoop belowBoundary Scaled.shr 24 v) = false := by
  refine whileLoop_exits (fun w => w.m.size) (fun w hc => ?_) 24 v (Nat.size_le.2 h)
  rw [shr_m]
  exact size_div_two_lt (belowBoundary_iff.1 hc).2

/-- R197 to R199: for a candidate exponent of at most 0, the mantissa field is the full mantissa moved to exponent 0 and
cut by 17 places, and the pattern is the signed zero exactly where nothing of it is left. -/
theorem narrow_of_nonpos (s : BitVec 1) {full : ℕ} {c : ℤ} (hfull : full < 2 ^ 24) (hc : c ≤ 0) :
    narrow s full c = pack s 0#4 (BitVec.ofNat 7 (mantissaAtZero ⟨full, c⟩ / 2 ^ 17)) := by
  have hcut (m : ℕ) : (m >>> 16) >>> 1 = m / 2 ^ 17 := by
    rw [← Nat.shiftRight_add, Nat.shiftRight_eq_div_pow]
  rw [narrow, if_neg (by omega), if_neg (by omega)]
  split
  · next hzero => rw [hcut, hzero, mantissaAtZero]; simp
  next hne =>
  have hkept : (whileLoop belowBoundary Scaled.shr 24 ⟨full, c⟩).e ≤ 0 ∧
      mantissaAtZero (whileLoop belowBoundary Scaled.shr 24 ⟨full, c⟩) = mantissaAtZero ⟨full, c⟩ := by
    refine whileLoop_invariant (P := fun w => w.e ≤ 0 ∧ mantissaAtZero w = mantissaAtZero ⟨full, c⟩)
      (fun w hw hcond => ?_) 24 _ ⟨hc, rfl⟩
    obtain ⟨hneg, -⟩ := belowBoundary_iff.1 hcond
    exact ⟨by rw [shr_e]; omega, (mantissaAtZero_shr hneg).trans hw.2⟩
  have hexit := belowBoundary_exits (v := ⟨full, c⟩) hfull
  generalize whileLoop belowBoundary Scaled.shr 24 ⟨full, c⟩ = w at hkept hexit ⊢
  obtain ⟨he, hmant⟩ := hkept
  rw [← Bool.not_eq_true, belowBoundary_iff] at hexit
  rw [← hmant, mantissaAtZero]
  simp only
  split
  · next hgone =>
    rw [show w.m = 0 by omega, Nat.zero_div, Nat.zero_div, zero]
  · rw [hcut, show w.e = 0 by omega]
    simp

/-! ### The closed form -/

/-- R193: the implicit bit stands above the mantissa. -/
theorem nativeFull_eq_add (w : Word) : nativeFull w = 2 ^ 23 + (fMantissa w).toNat :=
  (Nat.two_pow_add_eq_or_of_lt (fMantissa w).isLt 1).symm

/-- R196: the seven bits below the implicit bit are the top seven of the native mantissa. -/
theorem nativeFull_top_bits (w : Word) :
    BitVec.ofNat 7 ((nativeFull w >>> 16) &&& 0x7F) = w.extractLsb' 16 7 := by
  apply BitVec.eq_of_toNat_eq
  rw [nativeFull_eq_add, fMantissa, BitVec.extractLsb'_toNat, BitVec.extractLsb'_toNat, BitVec.toNat_ofNat,
    Nat.and_two_pow_sub_one_eq_mod _ 7, Nat.shiftRight_eq_div_pow, Nat.shiftRight_eq_div_pow]
  omega

/-- R200: the steps R191 to R199 give the closed form. -/
theorem fromFp32_eq_closed (cfg : Config) (w : Word) : fromFp32 cfg w = fromFp32Closed cfg w := by
  have hm : (fMantissa w).toNat < 2 ^ 23 := (fMantissa w).isLt
  have hspecial : fExponent w = 255#8 ↔ (fExponent w).toNat = 255 := BitVec.toNat_inj.symm
  simp only [fromFp32, fromFp32Closed, hspecial]
  by_cases hmax : (fExponent w).toNat = 255
  · by_cases hmant : fMantissa w = 0#23 <;> simp [hmax, hmant]
  have hc : candidate w = (fExponent w).toNat - 120 := by
    rw [candidate, fUnbiasedExponent]
    ring
  simp only [hmax, false_and, if_false]
  split_ifs with hover hnormal hlow
  · rw [narrow, if_pos (by omega)]
  · have hexp : candidate w = ((fExponent w).toNat - 120 : ℕ) := by omega
    rw [narrow, if_neg (by omega), if_pos (by omega), nativeFull_top_bits, hexp, BitVec.ofInt_natCast]
  all_goals
    have hplaces : (-candidate w).toNat + 17 = 137 - (fExponent w).toNat := by omega
    rw [narrow_of_nonpos _ (by rw [nativeFull_eq_add]; omega) (by omega), mantissaAtZero, nativeFull_eq_add,
      Nat.div_div_eq_div_mul, ← pow_add, hplaces]
  rw [Nat.div_eq_of_lt, zero]
  calc 2 ^ 23 + (fMantissa w).toNat < 2 ^ 24 := by omega
    _ ≤ 2 ^ (137 - (fExponent w).toNat) := Nat.pow_le_pow_right (by norm_num) (by omega)

/-- Settles O30: the closed form is what the steps of R190 compute. -/
theorem fromFp32Result : Obligations.FromFp32Result := by
  intro a b s
  rw [deliversCF_iff, exec_fromfp32, fromFp32_eq_closed]

theorem zero_eq_append (s : BitVec 1) : zero s = s ++ 0#11 := by
  rw [zero, pack, BitVec.append_assoc]
  rfl

/-- Settles O31: raw exponent 0 is far below the smallest magnitude of the closed form. -/
theorem nativeSubnormalsGiveZero : Obligations.NativeSubnormalsGiveZero := by
  intro a b s hexp
  have hzero : fromFp32Closed s.cfg a = fSign a ++ 0#11 := by
    simp [fromFp32Closed, hexp, zero_eq_append]
  exact hzero ▸ fromFp32Result a b s

end Sys2Proof.Machine
end

section
/-! PROOFS. FROMFP32 truncates toward zero and saturates (45_from_fp32.md R202, R203). A magnitude truncates to the
pattern whose own magnitude it reaches and whose next one it does not; the next one is a place of the mantissa away. -/

namespace Sys2Proof.Machine

/-! ### Truncation read on units -/

/-- R24: between two magnitudes is at least one place of the smaller one's mantissa, of which both are multiples. -/
theorem magnitudeUnits_gap {x z : CF} (h : magnitudeUnits x < magnitudeUnits z) :
    magnitudeUnits x + 2 ^ ((exponent x).toNat - 1) ≤ magnitudeUnits z := by
  have hexp : (exponent x).toNat ≤ (exponent z).toNat := by
    obtain hlt | ⟨heq, -⟩ := magnitudeBits_lt_iff.1 (magnitudeUnits_lt_iff.1 h)
    · exact hlt.le
    · rw [heq]
  have hdvd : 2 ^ ((exponent x).toNat - 1) ∣ magnitudeUnits z :=
    (pow_dvd_pow 2 (Nat.sub_le_sub_right hexp 1)).mul_left _
  have := Nat.le_of_dvd (Nat.sub_pos_of_lt h) (Nat.dvd_sub hdvd (Nat.dvd_mul_left _ _))
  omega

/-- R29: what comes after a finite magnitude, by a place of its mantissa, is at most 256. -/
theorem magnitudeUnits_add_place_le {r : CF} (h : isFinite r = true) :
    magnitudeUnits r + 2 ^ ((exponent r).toNat - 1) ≤ 2 ^ 21 := by
  have hexp := exponent_le_of_isFinite h
  have hfull : (fullMantissa r).toNat + 1 ≤ 2 ^ 8 := (fullMantissa r).isLt
  calc magnitudeUnits r + 2 ^ ((exponent r).toNat - 1)
      = ((fullMantissa r).toNat + 1) * 2 ^ ((exponent r).toNat - 1) := by rw [magnitudeUnits]; ring
    _ ≤ 2 ^ 8 * 2 ^ 13 := Nat.mul_le_mul hfull (Nat.pow_le_pow_right (by norm_num) (by omega))
    _ = 2 ^ 21 := by norm_num

theorem truncatesTo_inf (s : BitVec 1) {m : ℚ} (h : 256 ≤ m) : TruncatesTo s m (inf s) :=
  ⟨sign_inf s, by rw [if_pos h]⟩

/-- A magnitude from that of a finite pattern on, and less than a place of its mantissa above, truncates to it. -/
theorem truncatesTo_of_units {m : ℚ} {r : CF} (hfin : isFinite r = true) (hle : (magnitudeUnits r : ℚ) ≤ m * 2 ^ 13)
    (hlt : m * 2 ^ 13 < (magnitudeUnits r + 2 ^ ((exponent r).toNat - 1) : ℕ)) : TruncatesTo (sign r) m r := by
  have hsmall : m < 256 := by
    have htop : ((magnitudeUnits r + 2 ^ ((exponent r).toNat - 1) : ℕ) : ℚ) ≤ (2 ^ 21 : ℕ) :=
      Nat.cast_le.2 (magnitudeUnits_add_place_le hfin)
    push_cast at hlt htop
    linarith
  refine ⟨rfl, ?_⟩
  rw [if_neg hsmall.not_ge]
  refine ⟨hfin, ?_, fun z _ hz => ?_⟩
  · rwa [magnitude_eq_units, div_le_iff₀ (by norm_num)]
  · rw [magnitude_eq_units, div_le_iff₀ (by norm_num)] at hz
    have hnotAbove : ¬ magnitudeUnits r < magnitudeUnits z := fun habove =>
      (Nat.cast_le.2 (magnitudeUnits_gap habove)).not_gt (hz.trans_lt hlt)
    rw [magnitude_eq_units, magnitude_eq_units]
    gcongr
    omega

/-! ### Native magnitudes and raw exponents -/

/-- R30: a word's magnitude is below that of the next raw exponent. -/
theorem nativeUnits_lt (w : Word) : nativeUnits w < 2 ^ 23 * 2 ^ (fExponent w).toNat := by
  have hm : (fMantissa w).toNat < 2 ^ 23 := (fMantissa w).isLt
  rw [nativeUnits]
  split
  · next hzero => rwa [hzero, pow_zero, mul_one]
  · next hne =>
    obtain ⟨e, he⟩ := Nat.exists_eq_add_one_of_ne_zero hne
    rw [he, Nat.add_sub_cancel]
    calc (2 ^ 23 + (fMantissa w).toNat) * 2 ^ e < 2 ^ 24 * 2 ^ e :=
          Nat.mul_lt_mul_of_pos_right (by omega) (Nat.two_pow_pos e)
      _ = 2 ^ 23 * 2 ^ (e + 1) := by ring

/-- R30: a word with implicit bit has at least the magnitude of that bit. -/
theorem le_nativeUnits {w : Word} {e : ℕ} (h : e < (fExponent w).toNat) : 2 ^ 23 * 2 ^ e ≤ nativeUnits w := by
  rw [nativeUnits, if_neg (by omega)]
  exact Nat.mul_le_mul (Nat.le_add_right _ _) (Nat.pow_le_pow_right (by norm_num) (by omega))

/-- R202: from raw exponent 135 on the magnitude is 256 or more, of raw exponent 255 too where R30's formula is read on
it. -/
theorem le_nativeMagnitude_of_le {w : Word} (h : 135 ≤ (fExponent w).toNat) : 256 ≤ nativeMagnitude w := by
  have hunits : ((2 ^ 23 * 2 ^ 134 : ℕ) : ℚ) ≤ nativeUnits w := Nat.cast_le.2 (le_nativeUnits h)
  rw [nativeMagnitude_eq_units, le_div_iff₀ (by positivity)]
  push_cast at hunits
  linarith

/-! ### The closed form brackets the magnitude -/

/-- R203: `r` is finite, and its magnitude is reached by the word's and is less than a place of its mantissa below;
`2^136` native units of `2^-149` are one unit of `2^-13`. -/
def Brackets (r : CF) (w : Word) : Prop :=
  isFinite r = true ∧ magnitudeUnits r * 2 ^ 136 ≤ nativeUnits w ∧
    nativeUnits w < (magnitudeUnits r + 2 ^ ((exponent r).toNat - 1)) * 2 ^ 136

theorem truncatesTo_of_brackets {r : CF} {w : Word} (h : Brackets r w) :
    TruncatesTo (sign r) (nativeMagnitude w) r := by
  obtain ⟨hfin, hle, hlt⟩ := h
  have hscale : nativeMagnitude w * 2 ^ 13 = (nativeUnits w : ℚ) / 2 ^ 136 := by
    rw [nativeMagnitude_eq_units]
    ring
  apply truncatesTo_of_units hfin
  · rw [hscale, le_div_iff₀ (by positivity)]
    exact_mod_cast hle
  · rw [hscale, div_lt_iff₀ (by positivity)]
    exact_mod_cast hlt

/-- R196: raw exponents 121 to 134 keep the top seven mantissa bits. -/
theorem brackets_normalized {w : Word} (hlo : 121 ≤ (fExponent w).toNat) (hhi : (fExponent w).toNat ≤ 134) :
    Brackets (pack (fSign w) (BitVec.ofNat 4 ((fExponent w).toNat - 120)) (w.extractLsb' 16 7)) w := by
  obtain ⟨i, hi, hraw⟩ : ∃ i, i ≤ 13 ∧ (fExponent w).toNat = i + 121 := ⟨(fExponent w).toNat - 121, by omega, by omega⟩
  have hexp : (BitVec.ofNat 4 ((fExponent w).toNat - 120)).toNat = i + 1 := by
    rw [BitVec.toNat_ofNat]
    omega
  have hne : BitVec.ofNat 4 ((fExponent w).toNat - 120) ≠ 0#4 := fun h => by simp [h] at hexp
  have htop : (w.extractLsb' 16 7).toNat = (fMantissa w).toNat / 2 ^ 16 := by
    rw [fMantissa, BitVec.extractLsb'_toNat, BitVec.extractLsb'_toNat, Nat.shiftRight_eq_div_pow]
    omega
  have hunits : nativeUnits w = (2 ^ 23 + (fMantissa w).toNat) * 2 ^ (i + 120) := by
    rw [nativeUnits, if_neg (by omega), hraw, show i + 121 - 1 = i + 120 from rfl]
  refine ⟨?_, ?_⟩
  · rw [isFinite_iff, exponent_pack, Ne, ← BitVec.toNat_inj, hexp, BitVec.toNat_ofNat]
    omega
  · rw [magnitudeUnits, fullMantissa_toNat, exponent_pack, mantissa_pack, if_neg hne, hexp, htop, hunits,
      Nat.add_sub_cancel]
    have hsplit (k : ℕ) : k * 2 ^ i * 2 ^ 136 = k * 2 ^ 16 * 2 ^ (i + 120) := by ring
    have hpos : 0 < 2 ^ (i + 120) := Nat.two_pow_pos _
    rw [← Nat.succ_mul, hsplit, hsplit]
    exact ⟨Nat.mul_le_mul_right _ (by omega), Nat.mul_lt_mul_of_pos_right (by omega) hpos⟩

/-- R24: a pattern of exponent field 0 has the units of its mantissa, and brackets what has them as whole part. -/
theorem brackets_denormal (s : BitVec 1) {w : Word} {k : ℕ} (hk : k < 2 ^ 7) (h : nativeUnits w / 2 ^ 136 = k) :
    Brackets (pack s 0#4 (BitVec.ofNat 7 k)) w := by
  have hunits : magnitudeUnits (pack s 0#4 (BitVec.ofNat 7 k)) = k := by
    rw [magnitudeUnits, fullMantissa_toNat, exponent_pack, mantissa_pack, BitVec.toNat_ofNat, Nat.mod_eq_of_lt hk]
    simp
  have hpos : 0 < 2 ^ 136 := Nat.two_pow_pos _
  refine ⟨isFinite_iff.2 (by rw [exponent_pack]; decide), ?_⟩
  rw [hunits, exponent_pack]
  exact ⟨h ▸ Nat.div_mul_le_self _ _, h ▸ Nat.lt_mul_of_div_lt (Nat.lt_succ_self _) hpos⟩

/-- R201, R202: below raw exponent 114 the magnitude is less than one unit. -/
theorem nativeUnits_div_eq_zero {w : Word} (h : (fExponent w).toNat ≤ 113) : nativeUnits w / 2 ^ 136 = 0 := by
  apply Nat.div_eq_of_lt
  calc nativeUnits w < 2 ^ 23 * 2 ^ (fExponent w).toNat := nativeUnits_lt w
    _ ≤ 2 ^ 23 * 2 ^ 113 := Nat.mul_le_mul_left _ (Nat.pow_le_pow_right (by norm_num) h)
    _ = 2 ^ 136 := by norm_num

/-- R197, R198: with implicit bit and below raw exponent 121, the whole units are the full mantissa moved down. -/
theorem nativeUnits_div_eq_shifted {w : Word} (hlo : 1 ≤ (fExponent w).toNat) (hhi : (fExponent w).toNat ≤ 120) :
    nativeUnits w / 2 ^ 136 = (2 ^ 23 + (fMantissa w).toNat) / 2 ^ (137 - (fExponent w).toNat) := by
  have hplaces : 2 ^ 136 = 2 ^ (137 - (fExponent w).toNat) * 2 ^ ((fExponent w).toNat - 1) := by
    rw [← pow_add]
    congr 1
    omega
  rw [nativeUnits, if_neg (by omega), hplaces, Nat.mul_div_mul_right _ _ (Nat.two_pow_pos _)]

/-- R202, R203: FROMFP32 truncates the magnitude of every word that is no NaN; an Infinity counts as the `2^128` that
R30's formula gives for its fields. -/
theorem fromFp32Closed_truncates (cfg : Config) {w : Word} (h : isNativeNan w = false) :
    TruncatesTo (fSign w) (nativeMagnitude w) (fromFp32Closed cfg w) := by
  have hof {s : BitVec 1} {e : BitVec 4} {m : BitVec 7} (hb : Brackets (pack s e m) w) :
      TruncatesTo s (nativeMagnitude w) (pack s e m) := by
    simpa using truncatesTo_of_brackets hb
  have hm : (fMantissa w).toNat < 2 ^ 23 := (fMantissa w).isLt
  simp only [fromFp32Closed]
  split_ifs with hmax hmant hover hnormal hlow
  · have hexp : fExponent w = 255#8 := BitVec.eq_of_toNat_eq hmax
    simp [isNativeNan, hexp, hmant] at h
  · exact truncatesTo_inf _ (le_nativeMagnitude_of_le (by omega))
  · exact truncatesTo_inf _ (le_nativeMagnitude_of_le hover)
  · exact hof (brackets_normalized hnormal (by omega))
  · exact hof (brackets_denormal (k := 0) _ (by norm_num) (nativeUnits_div_eq_zero hlow))
  · refine hof (brackets_denormal _ ?_ (nativeUnits_div_eq_shifted (by omega) (by omega)))
    apply Nat.div_lt_of_lt_mul
    calc 2 ^ 23 + (fMantissa w).toNat < 2 ^ 17 * 2 ^ 7 := by omega
      _ ≤ 2 ^ (137 - (fExponent w).toNat) * 2 ^ 7 :=
        Nat.mul_le_mul_right _ (Nat.pow_le_pow_right (by norm_num) (by omega))

/-- Settles O32: the closed form brackets the magnitude below 256. -/
theorem fromFp32Truncates : Obligations.FromFp32Truncates := by
  intro a b s hexp
  have hnumber : isNativeNan a = false := by simp [isNativeNan, hexp]
  exact ⟨_, fromFp32Result a b s, fromFp32Closed_truncates s.cfg hnumber⟩

end Sys2Proof.Machine
end

section
/-! PROOFS. FROMFP32 is monotonic (45_from_fp32.md R202), because truncation keeps the order of magnitudes,
and truncation toward zero that of signed values. -/

namespace Sys2Proof.Machine

/-! ### Truncation keeps the order of magnitudes -/

theorem magnitude_lt_iff {p q : CF} :
    magnitude p < magnitude q ↔ (magnitudeBits p).toNat < (magnitudeBits q).toNat := by
  rw [magnitude_eq_units, magnitude_eq_units, div_lt_div_iff_of_pos_right (by norm_num), Nat.cast_lt,
    magnitudeUnits_lt_iff]

theorem magnitudeBits_inf (s : BitVec 1) : (magnitudeBits (inf s)).toNat = 0x780 :=
  magnitudeBits_of_isInfinity (isInfinity_inf s)

theorem magnitudeBits_lt_of_isFinite {x : CF} (h : isFinite x = true) : (magnitudeBits x).toNat < 0x780 := by
  have hexp := exponent_le_of_isFinite h
  have hmant : (mantissa x).toNat < 128 := (mantissa x).isLt
  rw [toNat_magnitudeBits]
  omega

section
variable {s s' : BitVec 1} {m m' : ℚ} {r r' : CF}

/-- A truncated magnitude is saturated from 256 on, and below it is the largest finite one that fits. -/
theorem truncatesTo_cases (h : TruncatesTo s m r) :
    256 ≤ m ∧ r = inf s ∨ m < 256 ∧ isFinite r = true ∧ magnitude r ≤ m ∧
      ∀ z, isFinite z = true → magnitude z ≤ m → magnitude z ≤ magnitude r := by
  obtain ⟨-, h⟩ := h
  by_cases hm : 256 ≤ m
  · exact .inl ⟨hm, by rwa [if_pos hm] at h⟩
  · exact .inr ⟨not_le.1 hm, by rwa [if_neg hm] at h⟩

theorem sign_of_truncatesTo (h : TruncatesTo s m r) : sign r = s := h.1

theorem isNan_of_truncatesTo (h : TruncatesTo s m r) : isNan r = false := by
  obtain ⟨-, rfl⟩ | ⟨-, hfin, -⟩ := truncatesTo_cases h
  · exact isNan_inf s
  · exact isNan_of_isFinite hfin

theorem magnitudeBits_le_of_truncatesTo (h : TruncatesTo s m r) (h' : TruncatesTo s' m' r') (hm : m ≤ m') :
    (magnitudeBits r).toNat ≤ (magnitudeBits r').toNat := by
  obtain ⟨hlarge, rfl⟩ | ⟨-, hfin, hle, -⟩ := truncatesTo_cases h <;>
    obtain ⟨-, rfl⟩ | ⟨hsmall, -, -, hmax⟩ := truncatesTo_cases h'
  · rw [magnitudeBits_inf, magnitudeBits_inf]
  · linarith
  · rw [magnitudeBits_inf]
    exact (magnitudeBits_lt_of_isFinite hfin).le
  · rw [← not_lt, ← magnitude_lt_iff, not_lt]
    exact hmax r hfin (hle.trans hm)

/-- Sign and magnitude determine the truncated pattern. -/
theorem truncatesTo_unique (h : TruncatesTo s m r) (h' : TruncatesTo s m r') : r = r' :=
  eq_iff_sign_magnitudeBits.2 ⟨(sign_of_truncatesTo h).trans (sign_of_truncatesTo h').symm,
    (magnitudeBits_le_of_truncatesTo h h' le_rfl).antisymm (magnitudeBits_le_of_truncatesTo h' h le_rfl)⟩

end

/-- A finite pattern is the truncation of its own magnitude. -/
theorem truncatesTo_self {x : CF} (h : isFinite x = true) : TruncatesTo (sign x) (magnitude x) x := by
  have hscale : magnitude x * 2 ^ 13 = magnitudeUnits x := by
    rw [magnitude_eq_units]
    ring
  refine truncatesTo_of_units h hscale.ge ?_
  rw [hscale, Nat.cast_lt]
  exact Nat.lt_add_of_pos_right (Nat.two_pow_pos _)

/-- Nothing is left of a magnitude that is not positive. -/
theorem magnitudeBits_eq_zero_of_truncatesTo {s : BitVec 1} {m : ℚ} {r : CF} (h : TruncatesTo s m r) (hm : m ≤ 0) :
    (magnitudeBits r).toNat = 0 := by
  have hself := truncatesTo_self (isFinite_zero 0#1)
  have hzero : (magnitudeBits (zero 0#1)).toNat = 0 := isZero_iff_magnitudeBits.1 (isZero_zero 0#1)
  have hmag : magnitude (zero 0#1) = 0 := by norm_num [magnitude, zero]
  have := magnitudeBits_le_of_truncatesTo h hself (by rwa [hmag])
  omega

/-- R202: truncation toward zero keeps the order of signed values. Of the four pairs of signs, non-negative below
negative leaves two zeros. -/
theorem rank_le_of_nativeValue_le {w w' : Word} {r r' : CF} (h : TruncatesTo (fSign w) (nativeMagnitude w) r)
    (h' : TruncatesTo (fSign w') (nativeMagnitude w') r') (hv : nativeValue w ≤ nativeValue w') : rank r ≤ rank r' := by
  have hnonneg := nativeMagnitude_nonneg w
  have hnonneg' := nativeMagnitude_nonneg w'
  rw [nativeValue, nativeValue, ← sign_of_truncatesTo h, ← sign_of_truncatesTo h'] at hv
  rw [rank, rank]
  split_ifs at hv ⊢
  · have := magnitudeBits_le_of_truncatesTo h h' hv
    omega
  · have := magnitudeBits_eq_zero_of_truncatesTo h (by linarith)
    have := magnitudeBits_eq_zero_of_truncatesTo h' (by linarith)
    omega
  · omega
  · have := magnitudeBits_le_of_truncatesTo h' h (neg_le_neg_iff.1 hv)
    omega

/-! ### The order of native words -/

theorem isNativeNan_iff {w : Word} : isNativeNan w = true ↔ fExponent w = 255#8 ∧ fMantissa w ≠ 0#23 := by
  simp [isNativeNan]

/-- R30: the formula of the numbers, read on an Infinity, gives `2^128`. -/
theorem nativeMagnitude_of_infinity {w : Word} (hexp : fExponent w = 255#8) (hmant : fMantissa w = 0#23) :
    nativeMagnitude w = 2 ^ 128 := by
  rw [nativeMagnitude, hexp, hmant, if_neg (by decide)]
  norm_num

theorem nativeMagnitude_le_of_number {w : Word} (h : fExponent w ≠ 255#8) : nativeMagnitude w ≤ 2 ^ 128 := by
  have hexp : (fExponent w).toNat ≤ 254 := by
    have hlt : (fExponent w).toNat < 256 := (fExponent w).isLt
    have hne : (fExponent w).toNat ≠ 255 := fun h255 => h (BitVec.eq_of_toNat_eq h255)
    omega
  have hunits : nativeUnits w ≤ 2 ^ 23 * 2 ^ 254 :=
    (nativeUnits_lt w).le.trans (Nat.mul_le_mul_left _ (Nat.pow_le_pow_right (by norm_num) hexp))
  rw [nativeMagnitude_eq_units, div_le_iff₀ (by positivity)]
  calc (nativeUnits w : ℚ) ≤ (2 ^ 23 * 2 ^ 254 : ℕ) := Nat.cast_le.2 hunits
    _ = 2 ^ 128 * 2 ^ 149 := by norm_num

/-- R30: the infinities are the ends of the extended line, and in the formula of the numbers they are `2^128` and
`-2^128`, between which all numbers lie. -/
theorem nativeExtendedValue_cases {w : Word} (h : isNativeNan w = false) :
    nativeExtendedValue w = ⊤ ∧ nativeValue w = 2 ^ 128 ∨ nativeExtendedValue w = ⊥ ∧ nativeValue w = -2 ^ 128 ∨
      nativeExtendedValue w = (nativeValue w : WithTop ℚ) ∧ -2 ^ 128 ≤ nativeValue w ∧ nativeValue w ≤ 2 ^ 128 := by
  rw [nativeExtendedValue]
  by_cases hexp : fExponent w = 255#8
  · have hmant : fMantissa w = 0#23 := by
      by_contra hne
      simp [isNativeNan_iff.2 ⟨hexp, hne⟩] at h
    rw [nativeValue, nativeMagnitude_of_infinity hexp hmant, if_pos hexp]
    split_ifs
    · exact .inl ⟨rfl, rfl⟩
    · exact .inr (.inl ⟨rfl, rfl⟩)
  · rw [if_neg hexp, ← abs_le, abs_nativeValue]
    exact .inr (.inr ⟨rfl, nativeMagnitude_le_of_number hexp⟩)

/-- On the extended line too the order is that of the formula's values. -/
theorem nativeValue_le_of_extended {w w' : Word} (h : isNativeNan w = false) (h' : isNativeNan w' = false)
    (hle : nativeExtendedValue w ≤ nativeExtendedValue w') : nativeValue w ≤ nativeValue w' := by
  have hcoe_lt_top (c : ℚ) : ((c : WithTop ℚ) : WithBot (WithTop ℚ)) < ⊤ :=
    WithBot.coe_lt_coe.2 (WithTop.coe_lt_top c)
  obtain ⟨he, hv⟩ | ⟨he, hv⟩ | ⟨he, hlo, hhi⟩ := nativeExtendedValue_cases h <;>
    obtain ⟨he', hv'⟩ | ⟨he', hv'⟩ | ⟨he', hlo', hhi'⟩ := nativeExtendedValue_cases h'
  case inr.inr.inr.inr => rwa [he, he', WithBot.coe_le_coe, WithTop.coe_le_coe] at hle
  case inl.inr.inl => exact absurd (he ▸ he' ▸ hle) bot_lt_top.not_ge
  case inl.inr.inr => exact absurd (he ▸ he' ▸ hle) (hcoe_lt_top _).not_ge
  case inr.inr.inr.inl => exact absurd (he ▸ he' ▸ hle) (WithBot.bot_lt_coe _).not_ge
  all_goals linarith

/-- R30: a native word read as a number, by its fields. -/
theorem word_toNat_eq_fields (w : Word) :
    w.toNat = (fSign w).toNat * 2 ^ 31 + (fExponent w).toNat * 2 ^ 23 + (fMantissa w).toNat := by
  have hlt : w.toNat < 2 ^ 32 := w.isLt
  simp only [fSign, fExponent, fMantissa, BitVec.extractLsb'_toNat, Nat.shiftRight_eq_div_pow]
  omega

theorem fSign_eq_zero_of_lt {w : Word} (h : w.toNat < 2 ^ 31) : fSign w = 0#1 := by
  apply BitVec.eq_of_toNat_eq
  have := word_toNat_eq_fields w
  simp only [BitVec.toNat_ofNat]
  omega

theorem isNativeNan_of_toNat_le {w : Word} (h : w.toNat ≤ 0x7F800000) : isNativeNan w = false := by
  rw [← Bool.not_eq_true, isNativeNan_iff]
  rintro ⟨hexp, hmant⟩
  have hfields := word_toNat_eq_fields w
  rw [hexp] at hfields
  refine hmant (BitVec.eq_of_toNat_eq ?_)
  simp only [BitVec.toNat_ofNat] at hfields ⊢
  omega

/-- R202: on non-negative words the order of the words is the order of the magnitudes. -/
theorem nativeUnits_le_of_toNat_le {w w' : Word} (hle : w.toNat ≤ w'.toNat) (hlt : w'.toNat < 2 ^ 31) :
    nativeUnits w ≤ nativeUnits w' := by
  have hm : (fMantissa w).toNat < 2 ^ 23 := (fMantissa w).isLt
  have hm' : (fMantissa w').toNat < 2 ^ 23 := (fMantissa w').isLt
  have hfields : (fExponent w).toNat < (fExponent w').toNat ∨
      (fExponent w).toNat = (fExponent w').toNat ∧ (fMantissa w).toNat ≤ (fMantissa w').toNat := by
    have hw := word_toNat_eq_fields w
    have hw' := word_toNat_eq_fields w'
    rw [fSign_eq_zero_of_lt (hle.trans_lt hlt)] at hw
    rw [fSign_eq_zero_of_lt hlt] at hw'
    omega
  obtain hexp | ⟨hexp, hmant⟩ := hfields
  · exact (nativeUnits_lt w).le.trans (le_nativeUnits hexp)
  · rw [nativeUnits, nativeUnits, hexp]
    split_ifs
    · exact hmant
    · gcongr

/-! ### Monotonicity -/

theorem toNat_of_sign_zero {x : CF} (h : sign x = 0#1) : x.toNat = (magnitudeBits x).toNat := by
  rw [toNat_eq_fields, h, toNat_magnitudeBits]
  simp

/-- Settles O33: the results truncate the values, and truncation keeps their order. -/
theorem fromFp32Monotonic : Obligations.FromFp32Monotonic := by
  refine ⟨fun a a' b s ha ha' hle => ?values, fun a a' b s hle hmax => ?patterns⟩
  case values =>
    have h := fromFp32Closed_truncates s.cfg ha
    have h' := fromFp32Closed_truncates s.cfg ha'
    have hnan := isNan_of_truncatesTo h
    have hnan' := isNan_of_truncatesTo h'
    refine ⟨_, _, fromFp32Result a b s, fromFp32Result a' b s, hnan, hnan', ?_⟩
    rw [← not_lt, extendedValue_lt_iff hnan' hnan, not_lt]
    exact rank_le_of_nativeValue_le h h' (nativeValue_le_of_extended ha ha' hle)
  case patterns =>
    have h := fromFp32Closed_truncates s.cfg (isNativeNan_of_toNat_le (hle.trans hmax))
    have h' := fromFp32Closed_truncates s.cfg (isNativeNan_of_toNat_le hmax)
    have hmagnitude : nativeMagnitude a ≤ nativeMagnitude a' := by
      rw [nativeMagnitude_eq_units, nativeMagnitude_eq_units]
      gcongr
      exact nativeUnits_le_of_toNat_le hle (by omega)
    refine ⟨_, _, fromFp32Result a b s, fromFp32Result a' b s, ?_⟩
    rw [toNat_of_sign_zero ((sign_of_truncatesTo h).trans (fSign_eq_zero_of_lt (by omega))),
      toNat_of_sign_zero ((sign_of_truncatesTo h').trans (fSign_eq_zero_of_lt (by omega)))]
    exact magnitudeBits_le_of_truncatesTo h h' hmagnitude

end Sys2Proof.Machine
end

section
/-! PROOFS. To the native float and back (45_from_fp32.md R204): TOFP32 is exact, and a finite pattern is the only
truncation of its own magnitude. -/

namespace Sys2Proof.Machine

/-- A finite pattern comes back: TOFP32 is exact, and FROMFP32 truncates to the pattern of that magnitude. -/
theorem fromFp32Closed_toFp32Closed_of_isFinite (cfg : Config) {x : CF} (h : isFinite x = true) :
    fromFp32Closed cfg (toFp32Closed cfg x) = x := by
  obtain ⟨hsign, hunits⟩ := toFp32Closed_exact cfg h
  have hmagnitude : nativeMagnitude (toFp32Closed cfg x) = magnitude x := by
    rw [nativeMagnitude_eq_units, magnitude_eq_units, hunits]
    push_cast
    ring
  have hself := truncatesTo_self h
  have hnumber : isNativeNan (toFp32Closed cfg x) = false := by
    rw [← Bool.not_eq_true, isNativeNan_iff]
    rintro ⟨hexp, -⟩
    have hlarge : 256 ≤ magnitude x := hmagnitude ▸ le_nativeMagnitude_of_le (by rw [hexp]; decide)
    have hinf : x = inf (sign x) := by simpa [TruncatesTo, hlarge] using hself
    rw [hinf] at h
    simp [isFinite, inf] at h
  have htruncates := fromFp32Closed_truncates cfg hnumber
  rw [hsign, hmagnitude] at htruncates
  exact truncatesTo_unique htruncates hself

theorem fromFp32Closed_toFp32Closed_of_isInfinity (cfg : Config) {x : CF} (h : isInfinity x = true) :
    fromFp32Closed cfg (toFp32Closed cfg x) = x := by
  obtain ⟨hsign, hexp, hmant⟩ := fields_append (sign x) 0xFF#8 0#23
  have hword : toFp32Closed cfg x = sign x ++ 0xFF#8 ++ 0#23 := by
    simp [toFp32Closed, isNan_of_isInfinity h, h]
  have hx : x = inf (sign x) := by
    obtain ⟨he, hm⟩ : exponent x = 15#4 ∧ mantissa x = 0#7 := by simpa [isInfinity] using h
    exact eq_pack_iff.2 ⟨rfl, he, hm⟩
  rw [hword, fromFp32Closed, hsign, hexp, hmant]
  simpa using hx.symm

/-- R191: every native NaN, the one TOFP32 delivers too, gives `P_NAN12`. -/
theorem fromFp32Closed_of_isNativeNan (cfg : Config) {w : Word} (h : isNativeNan w = true) :
    fromFp32Closed cfg w = cfg.nan12 := by
  obtain ⟨hexp, hmant⟩ := isNativeNan_iff.1 h
  simp [fromFp32Closed, hexp, hmant]

theorem isNativeNan_nan32_of_legal {cfg : Config} (h : cfg.legal = true) : isNativeNan cfg.nan32 = true :=
  (Bool.and_eq_true_iff.1 h).2

/-- Settles O34: finite patterns, infinities and NaN each by their own lemma. -/
theorem conversionRoundTrip : Obligations.ConversionRoundTrip := by
  refine ⟨fun a b b' s hnumber => ⟨_, toFp32Result a b s, ?number⟩,
    fun a b b' s hnan hlegal => ⟨_, toFp32Result a b s, ?nan⟩⟩
  case number =>
    have hback : fromFp32Closed s.cfg (toFp32Closed s.cfg (cfOperand a)) = cfOperand a := by
      cases hinf : isInfinity (cfOperand a) with
      | true => exact fromFp32Closed_toFp32Closed_of_isInfinity s.cfg hinf
      | false => exact fromFp32Closed_toFp32Closed_of_isFinite s.cfg (isFinite_of_not_special hnumber hinf)
    simpa only [hback] using fromFp32Result (toFp32Closed s.cfg (cfOperand a)) b' s
  case nan =>
    have hword : toFp32Closed s.cfg (cfOperand a) = s.cfg.nan32 := if_pos hnan
    rw [hword, ← fromFp32Closed_of_isNativeNan s.cfg (isNativeNan_nan32_of_legal hlegal)]
    exact fromFp32Result s.cfg.nan32 b' s

end Sys2Proof.Machine
end

section
/-! PROOFS. The special values of ADD (46_add_sub.md R211), SUB as ADD of the negated operand (R217), and where a NaN
comes from in ADD, SUB, MUL and DIV. -/

namespace Sys2Proof.Machine

/-! ### Kinds of patterns -/

theorem isInfinity_iff {x : CF} : isInfinity x = true ↔ exponent x = 15#4 ∧ mantissa x = 0#7 := by
  simp [isInfinity]

theorem isInfinity_of_isFinite {x : CF} (h : isFinite x = true) : isInfinity x = false := by
  simp [isInfinity, isFinite_iff.1 h]

theorem isFinite_of_exponent_zero {x : CF} (h : exponent x = 0#4) : isFinite x = true := by
  rw [isFinite_iff, h]
  decide

theorem isFinite_of_isZero {x : CF} (h : isZero x = true) : isFinite x = true :=
  isFinite_of_exponent_zero (isZero_iff.1 h).1

/-- R27: there is one Infinity of each sign. -/
theorem eq_inf_of_isInfinity {x : CF} (h : isInfinity x = true) : x = inf (sign x) :=
  eq_pack_iff.2 ⟨rfl, isInfinity_iff.1 h⟩

/-- R160: NEG keeps the kind of a pattern, which its sign does not enter. -/
theorem negate_kind (x : CF) : isNan (negate x) = isNan x ∧ isInfinity (negate x) = isInfinity x ∧
    isFinite (negate x) = isFinite x := by
  obtain ⟨-, hexp, hmant⟩ := negate_fields x
  simp [isNan, isInfinity, isFinite, hexp, hmant]

theorem sign_negate_ne (x : CF) : sign (negate x) ≠ sign x := by
  obtain ⟨hsign, -, -⟩ := negate_fields x
  rw [hsign]
  generalize sign x = s
  decide +revert

/-- A sign differs from the one of two different signs exactly when it is the other. -/
theorem sign_ne_iff {s t u : BitVec 1} (h : t ≠ u) : s ≠ t ↔ s = u := by
  decide +revert

/-! ### ADD by the kinds of its operands (R211) -/

section
variable (cfg : Config) {p q : CF}

theorem add_of_isNan (h : isNan p = true ∨ isNan q = true) : add cfg p q = cfg.nan12 :=
  if_pos (by simpa using h)

theorem add_of_isInfinity (hp : isInfinity p = true) (hq : isInfinity q = true) :
    add cfg p q = if sign p = sign q then p else cfg.nan12 := by
  simp [add, hp, hq, isNan_of_isInfinity]

theorem add_of_isInfinity_left (hp : isInfinity p = true) (hq : isFinite q = true) : add cfg p q = p := by
  simp [add, hp, isInfinity_of_isFinite hq, isNan_of_isInfinity hp, isNan_of_isFinite hq]

theorem add_of_isInfinity_right (hp : isFinite p = true) (hq : isInfinity q = true) : add cfg p q = q := by
  simp [add, hq, isInfinity_of_isFinite hp, isNan_of_isInfinity hq, isNan_of_isFinite hp]

theorem add_of_isFinite (hp : isFinite p = true) (hq : isFinite q = true) : add cfg p q = addFinite p q := by
  simp [add, isInfinity_of_isFinite, isNan_of_isFinite, hp, hq]

end

/-- Settles O35: the five cases of R211. -/
theorem addSpecials : Obligations.AddSpecials := by
  intro a b s
  simp only [deliversCF_iff, exec_add]
  refine ⟨fun hnan => ?_, fun ha hb hsign => ?_, fun ha hb hsign => ?_, fun ha hb => ?_, fun ha hb => ?_⟩
  · rw [add_of_isNan _ hnan]
  · rw [add_of_isInfinity _ ha hb, if_neg hsign]
  · rw [add_of_isInfinity _ ha hb, if_pos hsign]
  · rw [add_of_isInfinity_left _ ha hb]
  · rw [add_of_isInfinity_right _ ha hb]

/-- R217: bit 11 of the port is the sign of the operand. -/
theorem cfOperand_xor_sign (port : Word) : cfOperand (port ^^^ 0x800#32) = negate (cfOperand port) :=
  BitVec.extractLsb'_xor

/-- Settles O44: flipping bit 11 of the port negates the operand. -/
theorem subIsAddOfNegation : Obligations.SubIsAddOfNegation := by
  refine fun a b s => ⟨?_, _, deliversCF_iff.2 (exec_sub a b s)⟩
  rw [exec_sub, exec_add, cfOperand_xor_sign, subtract]

/-! ### Where a NaN comes from -/

/-- R241 to R243: a product of numbers is a number. -/
theorem isNan_multiply (cfg : Config) {p q : CF} (hp : isNan p = false) (hq : isNan q = false) :
    isNan (multiply cfg p q) = false := by
  simp only [multiply, hp, hq, Bool.or_self, Bool.false_eq_true, if_false]
  split_ifs
  · exact isNan_zero _
  · exact isNan_inf _
  · exact isNan_mulFinite _ p q

section
variable {cfg : Config} (hlegal : cfg.legal = true) {p q : CF} (hp : isNan p = false) (hq : isNan q = false)
include hlegal hp hq

/-- R211: of numbers, only opposite infinities add to a NaN. -/
theorem isNan_add_iff :
    isNan (add cfg p q) = true ↔ isInfinity p = true ∧ isInfinity q = true ∧ sign p ≠ sign q := by
  cases hpinf : isInfinity p <;> cases hqinf : isInfinity q
  · have hpfin := isFinite_of_not_special hp hpinf
    have hqfin := isFinite_of_not_special hq hqinf
    simp [add_of_isFinite cfg hpfin hqfin, isNan_addFinite hpfin hqfin]
  · simp [add_of_isInfinity_right cfg (isFinite_of_not_special hp hpinf) hqinf, hq]
  · simp [add_of_isInfinity_left cfg hpinf (isFinite_of_not_special hq hqinf), hp]
  · by_cases hsign : sign p = sign q <;>
      simp [add_of_isInfinity cfg hpinf hqinf, hsign, hp, isNan_nan12_of_legal hlegal]

/-- R217: subtracting flips a sign, so of numbers only like infinities give a NaN. -/
theorem isNan_subtract_iff :
    isNan (subtract cfg p q) = true ↔ isInfinity p = true ∧ isInfinity q = true ∧ sign p = sign q := by
  obtain ⟨hnan, hinf, -⟩ := negate_kind q
  rw [subtract, isNan_add_iff hlegal hp (hnan.trans hq), hinf, sign_ne_iff (sign_negate_ne q)]

/-- R262, R263: of numbers, a NaN quotient is one of zeros (where the parameter says so) or of infinities. -/
theorem isNan_divide_iff : isNan (divide cfg p q) = true ↔
    (isInfinity p = true ∧ isInfinity q = true) ∨ (isZero p = true ∧ isZero q = true ∧ cfg.zdzNan = true) := by
  have hnan := isNan_nan12_of_legal hlegal
  have hzeroFinite {x : CF} (hx : isZero x = true) : isInfinity x = false :=
    isInfinity_of_isFinite (isFinite_of_isZero hx)
  simp only [divide, hp, hq, Bool.or_self, Bool.false_eq_true, if_false]
  split_ifs with hqzero hboth hpinf hqinf hqinf
  · rw [Bool.and_eq_true] at hboth
    simp [hnan, hboth, hqzero]
  · rw [Bool.and_eq_true] at hboth
    simp [hzeroFinite hqzero, hqzero, hboth]
  · simp [hnan, hpinf, hqinf]
  · simp [hqinf, hqzero]
  · simp [hpinf, hqzero]
  · simp [hpinf, hqzero, isNan_divFinite]

end

/-- Settles O55: each operation by its own lemma. -/
theorem nanOrigins : Obligations.NanOrigins := fun a b s hlegal ha hb =>
  ⟨⟨_, deliversCF_iff.2 (exec_add a b s), isNan_add_iff hlegal ha hb⟩,
    ⟨_, deliversCF_iff.2 (exec_sub a b s), isNan_subtract_iff hlegal ha hb⟩,
    ⟨_, deliversCF_iff.2 (exec_mul a b s), isNan_multiply s.cfg ha hb⟩,
    ⟨_, deliversCF_iff.2 (exec_div a b s), isNan_divide_iff hlegal ha hb⟩⟩

end Sys2Proof.Machine
end

section
/-! PROOFS. ADD of finite operands without loops (46_add_sub.md R212 to R216): the alignment is one right shift to the
larger exponent field, the carry loop one halving, the second loop of step 3 none, and the loop of step 4 one left
shift. Read off that form: commutativity of ADD (and of MUL), and the tie. -/

namespace Sys2Proof.Machine

/-! ### Loops whose number of rounds is known -/

/-- A loop whose condition holds before each of the first `k` rounds and not after them runs these rounds. -/
theorem whileLoop_eq_iterate {α : Type} {cond : α → Bool} {body : α → α} {k n : ℕ} (hk : k ≤ n) {v : α}
    (hbefore : ∀ i < k, cond (body^[i] v) = true) (hafter : cond (body^[k] v) = false) :
    whileLoop cond body n v = body^[k] v := by
  induction k generalizing n v with
  | zero => exact whileLoop_of_false hafter n
  | succ k ih =>
    obtain ⟨n, rfl⟩ := Nat.exists_eq_add_one_of_ne_zero (Nat.ne_zero_of_lt hk)
    have hfirst : cond v = true := hbefore 0 k.succ_pos
    rw [whileLoop_succ, if_pos hfirst, Function.iterate_succ_apply]
    exact ih (by omega) (fun i hi => hbefore (i + 1) (by omega)) hafter

theorem iterate_shl (v : Scaled) (k : ℕ) : Scaled.shl^[k] v = ⟨v.m * 2 ^ k, v.e - k⟩ := by
  induction k with
  | zero => simp
  | succ k ih =>
    rw [Function.iterate_succ_apply', ih]
    simp only [Scaled.shl, Nat.shiftLeft_eq, Scaled.mk.injEq]
    refine ⟨by ring, ?_⟩
    push_cast
    ring

theorem and_mantissaMask (m : ℕ) : m &&& 0x7F = m % 128 := Nat.and_two_pow_sub_one_eq_mod m 7

/-! ### Alignment (R212) -/

/-- The full mantissa brought to the exponent field `e`. -/
def alignedMantissa (x : CF) (e : ℕ) : ℕ := (fullMantissa x).toNat / 2 ^ (e - (exponent x).toNat)

/-- The larger of the two exponent fields. -/
def maxExponent (p q : CF) : ℕ := max (exponent p).toNat (exponent q).toNat

theorem align_eq (p q : CF) : align p q =
    ⟨alignedMantissa p (maxExponent p q), alignedMantissa q (maxExponent p q), maxExponent p q⟩ := by
  simp only [align, alignedMantissa, maxExponent, Nat.shiftRight_eq_div_pow]
  split
  · next hle => simp [max_eq_left hle]
  · next hlt => simp [max_eq_right (not_le.1 hlt).le]

theorem addFiniteClosed_eq (p q : CF) : addFiniteClosed p q =
    if sign p = sign q then
      sumClosed (sign p) (alignedMantissa p (maxExponent p q)) (alignedMantissa q (maxExponent p q)) (maxExponent p q)
    else if alignedMantissa p (maxExponent p q) = alignedMantissa q (maxExponent p q) then 0x000#12
    else if alignedMantissa q (maxExponent p q) < alignedMantissa p (maxExponent p q) then
      differenceClosed (sign p)
        (alignedMantissa p (maxExponent p q) - alignedMantissa q (maxExponent p q)) (maxExponent p q)
    else differenceClosed (sign q)
      (alignedMantissa q (maxExponent p q) - alignedMantissa p (maxExponent p q)) (maxExponent p q) := rfl

theorem maxExponent_comm (p q : CF) : maxExponent p q = maxExponent q p := max_comm _ _

theorem maxExponent_le {p q : CF} (hp : isFinite p = true) (hq : isFinite q = true) : maxExponent p q ≤ 14 :=
  max_le (exponent_le_of_isFinite hp) (exponent_le_of_isFinite hq)

theorem alignedMantissa_lt (x : CF) (e : ℕ) : alignedMantissa x e < 256 :=
  (Nat.div_le_self _ _).trans_lt (fullMantissa x).isLt

/-- The operand with the larger exponent field stays. -/
theorem alignedMantissa_exponent (x : CF) : alignedMantissa x (exponent x).toNat = (fullMantissa x).toNat := by
  simp [alignedMantissa]

/-- An operand that is shifted has lost its implicit bit. -/
theorem alignedMantissa_lt_of_lt {x : CF} {e : ℕ} (h : (exponent x).toNat < e) : alignedMantissa x e < 128 := by
  have hfull : (fullMantissa x).toNat < 256 := (fullMantissa x).isLt
  have htwo : 2 ^ 1 ≤ 2 ^ (e - (exponent x).toNat) := Nat.pow_le_pow_right (by norm_num) (by omega)
  exact Nat.div_lt_of_lt_mul (by omega)

/-- The implicit bit stands in an operand whose exponent field is the larger one and not 0. -/
theorem le_alignedMantissa {x : CF} (h : (exponent x).toNat ≠ 0) : 128 ≤ alignedMantissa x (exponent x).toNat := by
  rw [alignedMantissa_exponent, ← not_lt, (fullMantissa_bounds x).2, exponent_eq_zero_iff]
  exact h

/-- R216: the sum of the aligned mantissas has an implicit bit, but for two denormals. -/
theorem le_aligned_sum (p q : CF) :
    128 ≤ alignedMantissa p (maxExponent p q) + alignedMantissa q (maxExponent p q) ∨ maxExponent p q = 0 := by
  by_cases hzero : maxExponent p q = 0
  · exact .inr hzero
  refine .inl ?_
  obtain h | h := max_choice (exponent p).toNat (exponent q).toNat <;> rw [maxExponent, h] at hzero ⊢
  · exact (le_alignedMantissa hzero).trans (Nat.le_add_right _ _)
  · exact (le_alignedMantissa hzero).trans (Nat.le_add_left _ _)

/-- R215: a tie needs equal exponent fields, since the implicit bit of the larger one has no counterpart. -/
theorem alignedMantissa_eq_iff {p q : CF} :
    alignedMantissa p (maxExponent p q) = alignedMantissa q (maxExponent p q) ↔
      exponent p = exponent q ∧ mantissa p = mantissa q := by
  obtain hlt | heq | hgt := lt_trichotomy (exponent p).toNat (exponent q).toNat
  · have hp := alignedMantissa_lt_of_lt hlt
    have hq := le_alignedMantissa (x := q) (by omega)
    rw [maxExponent, max_eq_right hlt.le]
    exact iff_of_false (by omega) fun h => hlt.ne (congrArg BitVec.toNat h.1)
  · have hexp : exponent p = exponent q := BitVec.eq_of_toNat_eq heq
    rw [maxExponent, heq, max_self, alignedMantissa_exponent, ← heq, alignedMantissa_exponent, fullMantissa_toNat,
      fullMantissa_toNat, hexp, Nat.add_left_cancel_iff, BitVec.toNat_inj]
    exact (and_iff_right rfl).symm
  · have hp := le_alignedMantissa (x := p) (by omega)
    have hq := alignedMantissa_lt_of_lt hgt
    rw [maxExponent, max_eq_left hgt.le]
    exact iff_of_false (by omega) fun h => hgt.ne' (congrArg BitVec.toNat h.1)

/-! ### One sign (R213, R216) -/

theorem carried_eq (v : Aligned) : carried v =
    if v.fa + v.fb ≤ 255 then ⟨v.fa + v.fb, v.e⟩ else ⟨(v.fa + v.fb) / 2, v.e + 1⟩ := by
  simp only [carried, whileLoop_succ, whileLoop_zero, above8, decide_eq_true_eq, Scaled.shr,
    Nat.shiftRight_eq_div_pow, pow_one, ← not_le, ite_not]

/-- R216: a halved sum keeps its implicit bit. -/
theorem lostLeadingBit_carried {v : Aligned} (h : 128 ≤ v.fa + v.fb ∨ v.e = 0) :
    lostLeadingBit (carried v) = false := by
  rw [← Bool.not_eq_true, lostLeadingBit_iff, carried_eq]
  split <;> simp only <;> omega

/-- R213: with the second loop dead, the carried sum is packed or saturated. -/
theorem addSameSign_of_dead (s : BitVec 1) {v : Aligned} (h : lostLeadingBit (carried v) = false) :
    addSameSign s v = if (carried v).e > 14 then inf s
      else pack s (BitVec.ofInt 4 (carried v).e) (BitVec.ofNat 7 ((carried v).m % 128)) := by
  simp only [addSameSign, whileLoop_of_false h, and_mantissaMask]

theorem addSameSign_eq_sumClosed (s : BitVec 1) {fa fb e : ℕ} (h : 128 ≤ fa + fb ∨ e = 0) (he : e ≤ 14) :
    addSameSign s ⟨fa, fb, e⟩ = sumClosed s fa fb e := by
  rw [addSameSign_of_dead s (lostLeadingBit_carried (by simpa using h)), carried_eq]
  simp only [sumClosed]
  by_cases hsum : fa + fb ≤ 255
  · rw [if_pos hsum, if_pos hsum, if_neg (by simp only; omega), BitVec.ofInt_natCast]
  rw [if_neg hsum, if_neg hsum]
  by_cases htop : e = 14
  · rw [if_pos (by simp only; omega), if_pos htop]
  · rw [if_neg (by simp only; omega), if_neg htop, ← Nat.cast_add_one, BitVec.ofInt_natCast]

/-- Settles O43: by the implicit bit of the sum. -/
theorem secondAddLoopIsDead : Obligations.SecondAddLoopIsDead := by
  intro p q _ _
  apply lostLeadingBit_carried
  simpa [align_eq] using le_aligned_sum p q

/-! ### Different signs (R214, R215) -/

/-- The places by which step 4 moves a difference up. -/
def differencePlaces (d e : ℕ) : ℕ := min (7 - d.log2) (e - 1)

theorem differenceClosed_eq (s : BitVec 1) (d e : ℕ) : differenceClosed s d e =
    if d * 2 ^ differencePlaces d e < 128 then pack s 0#4 (BitVec.ofNat 7 (d * 2 ^ differencePlaces d e))
    else pack s (BitVec.ofNat 4 (e - differencePlaces d e)) (BitVec.ofNat 7 (d * 2 ^ differencePlaces d e - 128)) :=
  rfl

/-- By fewer places than it lacks, a difference stays below the implicit bit. -/
theorem difference_mul_pow_lt {d i j : ℕ} (h : d.log2 + i < j) : d * 2 ^ i < 2 ^ j :=
  calc d * 2 ^ i < 2 ^ (d.log2 + 1) * 2 ^ i := Nat.mul_lt_mul_of_pos_right Nat.lt_log2_self (Nat.two_pow_pos i)
    _ = 2 ^ (d.log2 + 1 + i) := (pow_add _ _ _).symm
    _ ≤ 2 ^ j := Nat.pow_le_pow_right (by norm_num) (by omega)

section
variable {d e : ℕ} (hd : d ≠ 0) (hlt : d < 256)
include hd hlt

theorem difference_log2_le : d.log2 ≤ 7 := Nat.lt_succ_iff.1 ((Nat.log2_lt hd).2 hlt)

theorem difference_moved_lt : d * 2 ^ differencePlaces d e < 256 := by
  have hlog := difference_log2_le hd hlt
  exact difference_mul_pow_lt (j := 8) (by rw [differencePlaces]; omega)

/-- R214: only the floor at exponent 1 keeps a difference from reaching the implicit bit. -/
theorem differencePlaces_of_lt (h : d * 2 ^ differencePlaces d e < 128) : differencePlaces d e = e - 1 := by
  have hlog := difference_log2_le hd hlt
  obtain hk | hk := min_choice (7 - d.log2) (e - 1)
  · have hreached : 2 ^ 7 ≤ d * 2 ^ (7 - d.log2) :=
      calc 2 ^ 7 = 2 ^ d.log2 * 2 ^ (7 - d.log2) := by rw [← pow_add, Nat.add_sub_cancel' hlog]
        _ ≤ d * 2 ^ (7 - d.log2) := Nat.mul_le_mul_right _ (Nat.log2_self_le hd)
    rw [differencePlaces, hk] at h
    omega
  · exact hk

/-- R214: the loop moves the difference up by these places. -/
theorem whileLoop_aboveDenormalFloor (he : e ≤ 14) : whileLoop aboveDenormalFloor Scaled.shl 13 ⟨d, e⟩ =
    ⟨d * 2 ^ differencePlaces d e, ((e - differencePlaces d e : ℕ) : ℤ)⟩ := by
  have hk : differencePlaces d e ≤ 7 - d.log2 ∧ differencePlaces d e ≤ e - 1 := ⟨min_le_left _ _, min_le_right _ _⟩
  rw [whileLoop_eq_iterate (k := differencePlaces d e) (by omega), iterate_shl, Nat.cast_sub (by omega)]
  · intro i hi
    have hbelow : d * 2 ^ i < 2 ^ 7 := difference_mul_pow_lt (by omega)
    rw [iterate_shl, aboveDenormalFloor_iff]
    simp only
    omega
  · rw [iterate_shl, ← Bool.not_eq_true, aboveDenormalFloor_iff]
    rintro ⟨hbelow, hfloor⟩
    have := differencePlaces_of_lt hd hlt hbelow
    simp only at hfloor
    omega

theorem addDifferentSign_of_difference {s sp sq : BitVec 1} {fa fb : ℕ} (he : e ≤ 14)
    (h : difference sp sq ⟨fa, fb, e⟩ = (s, d)) : addDifferentSign sp sq ⟨fa, fb, e⟩ = differenceClosed s d e := by
  have hmoved := difference_moved_lt (e := e) hd hlt
  simp only [addDifferentSign, h, whileLoop_aboveDenormalFloor hd hlt he, differenceClosed_eq, and_mantissaMask]
  split_ifs with hsmall
  · rw [Nat.mod_eq_of_lt hsmall]
    rfl
  · rw [BitVec.ofInt_natCast, Nat.mod_eq_sub_mod (by omega), Nat.mod_eq_of_lt (by omega)]

end

/-- R215: a tie leaves no bit to move up. -/
theorem addDifferentSign_of_tie (sp sq : BitVec 1) (f : ℕ) (e : ℤ) : addDifferentSign sp sq ⟨f, f, e⟩ = 0x000#12 := by
  have hzero : (whileLoop aboveDenormalFloor Scaled.shl 13 ⟨0, e⟩).m = 0 :=
    whileLoop_invariant (P := fun w : Scaled => w.m = 0) (fun w hw _ => by rw [shl_m, hw]) 13 _ rfl
  simp only [addDifferentSign, difference, lt_irrefl, if_false, hzero, Nat.ofNat_pos, if_true]
  rfl

/-! ### The closed form -/

theorem addFinite_eq_closed {p q : CF} (hp : isFinite p = true) (hq : isFinite q = true) :
    addFinite p q = addFiniteClosed p q := by
  have he := maxExponent_le hp hq
  have hpa := alignedMantissa_lt p (maxExponent p q)
  have hqa := alignedMantissa_lt q (maxExponent p q)
  rw [addFinite, addFiniteClosed_eq, align_eq]
  split_ifs with hsign htie hgt
  · exact addSameSign_eq_sumClosed _ (le_aligned_sum p q) he
  · rw [htie, addDifferentSign_of_tie]
  · exact addDifferentSign_of_difference (by omega) (by omega) he (by simp [difference, hgt])
  · exact addDifferentSign_of_difference (by omega) (by omega) he
      (by simp [difference, hgt, lt_of_le_of_ne (not_lt.1 hgt) htie])

theorem add_eq_closed (cfg : Config) {p q : CF} (hp : isFinite p = true) (hq : isFinite q = true) :
    add cfg p q = addFiniteClosed p q := (add_of_isFinite cfg hp hq).trans (addFinite_eq_closed hp hq)

/-- Settles O36: the closed form is what the steps of R210 compute. -/
theorem addFiniteResult : Obligations.AddFiniteResult := by
  intro a b s ha hb
  rw [deliversCF_iff, exec_add, add_eq_closed _ ha hb]

/-! ### Exact cancellation (R215) -/

/-- Equal fields under different signs. -/
theorem addFiniteClosed_of_tie {p q : CF} (hsign : sign p ≠ sign q) (hexp : exponent p = exponent q)
    (hmant : mantissa p = mantissa q) : addFiniteClosed p q = 0x000#12 := by
  rw [addFiniteClosed_eq, if_neg hsign, if_pos (alignedMantissa_eq_iff.2 ⟨hexp, hmant⟩)]

theorem subtract_self (cfg : Config) {x : CF} (h : isFinite x = true) : subtract cfg x x = 0x000#12 := by
  obtain ⟨-, -, hfin⟩ := negate_kind x
  obtain ⟨-, hexp, hmant⟩ := negate_fields x
  rw [subtract, add_eq_closed cfg h (hfin.trans h),
    addFiniteClosed_of_tie (sign_negate_ne x).symm hexp.symm hmant.symm]

/-- Settles O39: the tie of the aligned mantissas, then the closed form at a tie. -/
theorem cancellationGivesPositiveZero : Obligations.CancellationGivesPositiveZero := by
  refine ⟨fun p q _ _ => ?tie, fun a b s ha hsign hexp hmant => ?add, fun a b s ha hab => ?sub⟩
  case tie => rw [align_eq, alignedMantissa_eq_iff]
  case add =>
    have hb : isFinite (cfOperand b) = true := by rwa [isFinite_iff, ← hexp, ← isFinite_iff]
    rw [deliversCF_iff, exec_add, add_eq_closed _ ha hb, addFiniteClosed_of_tie hsign hexp hmant]
  case sub => rw [deliversCF_iff, exec_sub, ← hab, subtract_self _ ha]

/-! ### Commutativity (R218, R250) -/

theorem sumClosed_comm (s : BitVec 1) (fa fb e : ℕ) : sumClosed s fa fb e = sumClosed s fb fa e := by
  rw [sumClosed, sumClosed, add_comm fa fb]

theorem addFiniteClosed_comm (p q : CF) : addFiniteClosed p q = addFiniteClosed q p := by
  rw [addFiniteClosed_eq, addFiniteClosed_eq q p, maxExponent_comm q p]
  by_cases hsign : sign p = sign q
  · rw [if_pos hsign, if_pos hsign.symm, hsign, sumClosed_comm]
  rw [if_neg hsign, if_neg (Ne.symm hsign)]
  obtain hlt | heq | hgt := lt_trichotomy (alignedMantissa p (maxExponent p q)) (alignedMantissa q (maxExponent p q))
  · rw [if_neg hlt.ne, if_neg hlt.not_gt, if_neg hlt.ne', if_pos hlt]
  · rw [if_pos heq, if_pos heq.symm]
  · rw [if_neg hgt.ne', if_pos hgt, if_neg hgt.ne, if_neg hgt.not_gt]

/-- R218: of the special values, like infinities are equal patterns, and every other pair gives one result for both
orders by R211. -/
theorem add_comm_patterns (cfg : Config) (p q : CF) : add cfg p q = add cfg q p := by
  by_cases hnan : isNan p = true ∨ isNan q = true
  · rw [add_of_isNan cfg hnan, add_of_isNan cfg hnan.symm]
  simp only [not_or, Bool.not_eq_true] at hnan
  obtain ⟨hp, hq⟩ := hnan
  cases hpinf : isInfinity p <;> cases hqinf : isInfinity q
  · have hpfin := isFinite_of_not_special hp hpinf
    have hqfin := isFinite_of_not_special hq hqinf
    rw [add_eq_closed cfg hpfin hqfin, add_eq_closed cfg hqfin hpfin, addFiniteClosed_comm]
  · have hpfin := isFinite_of_not_special hp hpinf
    rw [add_of_isInfinity_right cfg hpfin hqinf, add_of_isInfinity_left cfg hqinf hpfin]
  · have hqfin := isFinite_of_not_special hq hqinf
    rw [add_of_isInfinity_left cfg hpinf hqfin, add_of_isInfinity_right cfg hqfin hpinf]
  · rw [add_of_isInfinity cfg hpinf hqinf, add_of_isInfinity cfg hqinf hpinf, eq_inf_of_isInfinity hpinf,
      eq_inf_of_isInfinity hqinf, sign_inf, sign_inf]
    by_cases hsign : sign p = sign q
    · rw [hsign]
    · rw [if_neg hsign, if_neg (Ne.symm hsign)]

/-- R250: every part of MUL takes its operands in either order. -/
theorem multiply_comm_patterns (cfg : Config) (p q : CF) : multiply cfg p q = multiply cfg q p := by
  have hraw : rawProduct p q = rawProduct q p := by
    rw [rawProduct, rawProduct, mul_comm, add_comm (unbiasedExponent p)]
  have hfinite (sg : BitVec 1) : mulFinite sg p q = mulFinite sg q p := by
    rw [mulFinite, mulFinite, normalizedProduct, normalizedProduct, hraw]
  simp only [multiply, hfinite, BitVec.xor_comm (sign p), Bool.or_comm (isNan p), Bool.or_comm (isZero p),
    Bool.or_comm (isInfinity p)]

/-- Settles O37: both operations commute on the operand patterns. -/
theorem addAndMulCommute : Obligations.AddAndMulCommute := by
  intro a b s
  rw [exec_add, exec_add, exec_mul, exec_mul, add_comm_patterns, multiply_comm_patterns]
  exact ⟨rfl, rfl⟩

end Sys2Proof.Machine
end

section
/-! PROOFS. What the loop-free sum of finite operands is worth (46_add_sub.md R218, R219, R221): a zero added, two
denormals with a lost carry, the truncated sum of normalized operands, the exact difference at equal exponent fields.
Magnitudes are counted in units of `2^-13`. -/

namespace Sys2Proof.Machine

/-! ### Packed full mantissas -/

theorem toNat_exponentField {e : ℕ} (h : e < 16) : (BitVec.ofNat 4 e).toNat = e := by
  rw [BitVec.toNat_ofNat, Nat.mod_eq_of_lt h]

theorem isFinite_pack_ofNat {s : BitVec 1} {e : ℕ} {m : BitVec 7} (he : e ≤ 14) :
    isFinite (pack s (BitVec.ofNat 4 e) m) = true := by
  rw [← BitVec.ofInt_natCast]
  exact isFinite_pack_ofInt (by omega) (by omega)

/-- Packing keeps a full mantissa whose implicit bit stands exactly above exponent field 0. -/
theorem magnitudeUnits_pack (s : BitVec 1) {e m n : ℕ} (he : e < 16) (hm : m < 256) (himplicit : m < 128 ↔ e = 0)
    (hn : n % 128 = m % 128) :
    magnitudeUnits (pack s (BitVec.ofNat 4 e) (BitVec.ofNat 7 n)) = m * 2 ^ (e - 1) := by
  have hexp := toNat_exponentField he
  have hfull : (fullMantissa (pack s (BitVec.ofNat 4 e) (BitVec.ofNat 7 n))).toNat = m := by
    have hzero : BitVec.ofNat 4 e = 0#4 ↔ e = 0 := by
      rw [← BitVec.toNat_inj, hexp]
      rfl
    simp only [fullMantissa_toNat, exponent_pack, mantissa_pack, BitVec.toNat_ofNat, hzero]
    split <;> omega
  rw [magnitudeUnits, hfull, exponent_pack, hexp]

/-- R24: sign and units determine the pattern. -/
theorem eq_of_sign_units {x z : CF} (hsign : sign x = sign z) (hunits : magnitudeUnits x = magnitudeUnits z) :
    x = z := by
  have hxz := magnitudeUnits_lt_iff (p := x) (q := z)
  have hzx := magnitudeUnits_lt_iff (p := z) (q := x)
  exact eq_iff_sign_magnitudeBits.2 ⟨hsign, by omega⟩

theorem fullMantissa_eq_zero_iff {x : CF} : (fullMantissa x).toNat = 0 ↔ isZero x = true := by
  rw [isZero_iff, fullMantissa_toNat, ← BitVec.toNat_inj (x := mantissa x), BitVec.toNat_ofNat]
  split
  · next hzero => simp [hzero]
  · next hne => simp [hne]

/-- R213: a sum without carry is packed as it is. -/
theorem sumClosed_of_le (s : BitVec 1) {fa fb : ℕ} (e : ℕ) (h : fa + fb ≤ 255) :
    sumClosed s fa fb e = pack s (BitVec.ofNat 4 e) (BitVec.ofNat 7 ((fa + fb) % 128)) := if_pos h

/-- R214: moving a difference up keeps its value, whether it reaches the implicit bit or exponent 1. -/
theorem differenceClosed_units (s : BitVec 1) {d e : ℕ} (hd : d ≠ 0) (hlt : d < 256) (he : e ≤ 14)
    (hdenormal : e = 0 → d < 128) :
    sign (differenceClosed s d e) = s ∧ magnitudeUnits (differenceClosed s d e) = d * 2 ^ (e - 1) := by
  have hmoved := difference_moved_lt (e := e) hd hlt
  have hk : differencePlaces d e ≤ e - 1 := min_le_right _ _
  rw [differenceClosed_eq]
  split_ifs with hsmall
  · refine ⟨sign_pack _ _ _, ?_⟩
    rw [magnitudeUnits_pack s (e := 0) (by norm_num) hmoved (by simpa using hsmall) rfl,
      differencePlaces_of_lt hd hlt hsmall]
    simp
  · have hpos : e ≠ 0 := by
      rintro rfl
      rw [Nat.le_zero.1 hk, pow_zero, mul_one] at hsmall
      exact hsmall (hdenormal rfl)
    refine ⟨sign_pack _ _ _, ?_⟩
    rw [magnitudeUnits_pack s (by omega) hmoved (by omega) (by omega), mul_assoc, ← pow_add]
    congr 2
    omega

/-! ### Adding a zero (R218) -/

theorem alignedMantissa_of_isZero {x : CF} (h : isZero x = true) (e : ℕ) : alignedMantissa x e = 0 := by
  rw [alignedMantissa, fullMantissa_eq_zero_iff.2 h, Nat.zero_div]

/-- A zero is aligned to the other operand, which stays as it is. -/
theorem maxExponent_of_isZero {p q : CF} (h : isZero q = true) : maxExponent p q = (exponent p).toNat := by
  rw [maxExponent, (isZero_iff.1 h).1]
  exact max_eq_left (Nat.zero_le _)

/-- Sum and difference with 0 both have the sign and the units of the other operand. -/
theorem addFiniteClosed_of_isZero_right {p q : CF} (hp : isFinite p = true) (hne : isZero p = false)
    (hq : isZero q = true) : addFiniteClosed p q = p := by
  have he := exponent_le_of_isFinite hp
  obtain ⟨hfull, himplicit⟩ := fullMantissa_bounds p
  rw [exponent_eq_zero_iff] at himplicit
  have hpos : (fullMantissa p).toNat ≠ 0 := by
    rw [Ne, fullMantissa_eq_zero_iff, hne]
    exact Bool.false_ne_true
  rw [addFiniteClosed_eq, maxExponent_of_isZero hq, alignedMantissa_of_isZero hq, alignedMantissa_exponent]
  by_cases hsign : sign p = sign q
  · rw [if_pos hsign, sumClosed_of_le _ _ (by omega)]
    exact eq_of_sign_units (sign_pack _ _ _) (magnitudeUnits_pack _ (by omega) hfull himplicit (by omega))
  · obtain ⟨hs, hu⟩ := differenceClosed_units (sign p) hpos hfull he himplicit.2
    rw [if_neg hsign, if_neg hpos, if_pos (Nat.pos_of_ne_zero hpos), Nat.sub_zero]
    exact eq_of_sign_units hs hu

theorem and_eq_zero_of_ne {s t : BitVec 1} (h : s ≠ t) : s &&& t = 0#1 := by
  decide +revert

theorem addFiniteClosed_zero_zero {p q : CF} (hp : isZero p = true) (hq : isZero q = true) :
    addFiniteClosed p q = zero (sign p &&& sign q) := by
  rw [addFiniteClosed_eq, maxExponent_of_isZero hq, alignedMantissa_of_isZero hp, alignedMantissa_of_isZero hq,
    (isZero_iff.1 hp).1]
  by_cases hsign : sign p = sign q
  · rw [if_pos hsign, ← hsign, BitVec.and_self]
    rfl
  · rw [if_neg hsign, if_pos rfl, and_eq_zero_of_ne hsign]
    rfl

/-- Settles O38: a zero on the right by the closed form, on the left by commutativity. -/
theorem addZeroIdentity : Obligations.AddZeroIdentity := by
  refine ⟨fun a b s ha hne hb => ?nonzero, fun a b s ha hb => ?zeros⟩
  case nonzero =>
    have hadd : add s.cfg (cfOperand a) (cfOperand b) = cfOperand a := by
      rw [add_eq_closed _ ha (isFinite_of_isZero hb), addFiniteClosed_of_isZero_right ha hne hb]
    rw [deliversCF_iff, deliversCF_iff, exec_add, exec_add, add_comm_patterns _ (cfOperand b), hadd]
    exact ⟨rfl, rfl⟩
  case zeros =>
    rw [deliversCF_iff, exec_add, add_eq_closed _ (isFinite_of_isZero ha) (isFinite_of_isZero hb),
      addFiniteClosed_zero_zero ha hb]

/-! ### Values of sums and differences -/

theorem value_zero (s : BitVec 1) : value (zero s) = 0 := by
  simp [value, magnitude, zero]

/-- Units of one sign add up. -/
theorem value_add_of_sign_eq {p q r : CF} (hsign : sign p = sign q) (hr : sign r = sign p)
    (hunits : magnitudeUnits r = magnitudeUnits p + magnitudeUnits q) : value r = value p + value q := by
  rw [value_eq_units, value_eq_units, value_eq_units, hunits, hr, ← hsign]
  split <;> push_cast <;> ring

/-- Units of different signs are taken from each other. -/
theorem value_add_of_sign_ne {p q r : CF} (hsign : sign p ≠ sign q) (hr : sign r = sign p)
    (hunits : magnitudeUnits p = magnitudeUnits r + magnitudeUnits q) : value r = value p + value q := by
  rw [value_eq_units, value_eq_units, value_eq_units, hunits, hr]
  by_cases hp : sign p = 0#1
  · rw [if_pos hp, if_pos hp, if_neg fun hq => hsign (hp.trans hq.symm)]
    push_cast
    ring
  · rw [if_neg hp, if_neg hp, if_pos ((sign_ne_iff hsign).1 (Ne.symm hp)).symm]
    push_cast
    ring

/-! ### Two denormals of one sign (R219) -/

/-- R24: a denormal has the units of its mantissa. -/
theorem magnitudeUnits_of_denormal {x : CF} (h : exponent x = 0#4) : magnitudeUnits x = (mantissa x).toNat := by
  rw [magnitudeUnits, fullMantissa_toNat, if_pos h, h]
  simp

/-- Settles O40: the sum has no carry out of eight bits, so its implicit bit is dropped; with exponent field 1 it would
be the implicit bit of the exact sum. -/
theorem denormalCarryLost : Obligations.DenormalCarryLost := by
  intro a b s ha hb hsign hsum
  have hma : (mantissa (cfOperand a)).toNat < 128 := (mantissa (cfOperand a)).isLt
  have hmb : (mantissa (cfOperand b)).toNat < 128 := (mantissa (cfOperand b)).isLt
  refine ⟨?_, value_add_of_sign_eq hsign (sign_pack _ _ _) ?_⟩
  · have hmax : maxExponent (cfOperand a) (cfOperand b) = 0 := by rw [maxExponent, ha, hb]; rfl
    have haligned {x : CF} (hx : exponent x = 0#4) : alignedMantissa x 0 = (mantissa x).toNat := by
      rw [alignedMantissa, fullMantissa_toNat, if_pos hx]
      simp
    rw [deliversCF_iff, exec_add, add_eq_closed _ (isFinite_of_exponent_zero ha) (isFinite_of_exponent_zero hb),
      addFiniteClosed_eq, if_pos hsign, hmax, haligned ha, haligned hb, sumClosed_of_le _ _ (by omega),
      Nat.mod_eq_sub_mod hsum, Nat.mod_eq_of_lt (by omega)]
  · rw [magnitudeUnits_of_denormal ha, magnitudeUnits_of_denormal hb,
      magnitudeUnits_pack _ (e := 1) (m := (mantissa (cfOperand a)).toNat + (mantissa (cfOperand b)).toNat)
        (by norm_num) (by omega) (by omega) (by omega)]
    simp

/-! ### Normalized operands of one sign (R218) -/

/-- Units truncate to the pattern of their full mantissa, the bits from the place of its exponent field on. -/
theorem truncatesTo_pack (s : BitVec 1) {units e m n : ℕ} (hlo : 1 ≤ e) (hhi : e ≤ 14) (hm : 128 ≤ m) (hm' : m < 256)
    (hn : n % 128 = m % 128) (h : units / 2 ^ (e - 1) = m) :
    TruncatesTo s ((units : ℚ) / 2 ^ 13) (pack s (BitVec.ofNat 4 e) (BitVec.ofNat 7 n)) := by
  have hunits := magnitudeUnits_pack s (e := e) (by omega) hm' (by omega) hn
  have hexp := toNat_exponentField (e := e) (by omega)
  have htrunc := truncatesTo_of_units (m := (units : ℚ) / 2 ^ 13)
    (r := pack s (BitVec.ofNat 4 e) (BitVec.ofNat 7 n)) (isFinite_pack_ofNat hhi)
  rw [hunits, exponent_pack, hexp, sign_pack, div_mul_cancel₀ _ (by norm_num), Nat.cast_le, Nat.cast_lt] at htrunc
  refine htrunc (h ▸ Nat.div_mul_le_self _ _) ?_
  rw [← Nat.succ_mul]
  exact Nat.lt_mul_of_div_lt (by omega) (Nat.two_pow_pos _)

/-- R213: a carry drops one more place, or saturates. -/
theorem sumClosed_truncates (s : BitVec 1) {units fa fb e : ℕ} (hlo : 1 ≤ e) (hhi : e ≤ 14) (hsum : 128 ≤ fa + fb)
    (hlt : fa + fb < 512) (h : units / 2 ^ (e - 1) = fa + fb) :
    TruncatesTo s ((units : ℚ) / 2 ^ 13) (sumClosed s fa fb e) := by
  simp only [sumClosed]
  split_ifs with hcarry htop
  · exact truncatesTo_pack s hlo hhi hsum (by omega) (by omega) h
  · have hlarge : 256 * 2 ^ 13 ≤ units := by
      rw [← Nat.le_div_iff_mul_le (by norm_num)]
      rw [htop] at h
      omega
    refine truncatesTo_inf s ?_
    rw [le_div_iff₀ (by norm_num)]
    exact_mod_cast hlarge
  · refine truncatesTo_pack s (m := (fa + fb) / 2) (by omega) (by omega) (by omega) (by omega) (by omega) ?_
    rw [← h, Nat.div_div_eq_div_mul, ← pow_succ, Nat.sub_add_cancel hlo, Nat.add_sub_cancel]

/-- R212: above exponent field 0, alignment divides the units by the place of the larger exponent field. -/
theorem alignedMantissa_eq_units_div {x : CF} {e : ℕ} (hlo : 1 ≤ (exponent x).toNat) (hhi : (exponent x).toNat ≤ e) :
    alignedMantissa x e = magnitudeUnits x / 2 ^ (e - 1) := by
  have hplaces : 2 ^ (e - 1) = 2 ^ (e - (exponent x).toNat) * 2 ^ ((exponent x).toNat - 1) := by
    rw [← pow_add]
    congr 1
    omega
  rw [alignedMantissa, magnitudeUnits, hplaces, Nat.mul_div_mul_right _ _ (Nat.two_pow_pos _)]

theorem exponent_le_maxExponent (p q : CF) :
    (exponent p).toNat ≤ maxExponent p q ∧ (exponent q).toNat ≤ maxExponent p q :=
  ⟨le_max_left _ _, le_max_right _ _⟩

/-- The operand with the larger exponent field loses nothing, so the aligned sum is the exact one cut at its place. -/
theorem units_add_div {p q : CF} (hp : 1 ≤ (exponent p).toNat) (hq : 1 ≤ (exponent q).toNat) :
    (magnitudeUnits p + magnitudeUnits q) / 2 ^ (maxExponent p q - 1) =
      alignedMantissa p (maxExponent p q) + alignedMantissa q (maxExponent p q) := by
  rw [alignedMantissa_eq_units_div hp (exponent_le_maxExponent p q).1,
    alignedMantissa_eq_units_div hq (exponent_le_maxExponent p q).2]
  obtain h | h := max_choice (exponent p).toNat (exponent q).toNat <;> rw [maxExponent, h]
  · exact Nat.add_div_of_dvd_right (Nat.dvd_mul_left _ _)
  · exact Nat.add_div_of_dvd_left (Nat.dvd_mul_left _ _)

theorem exponent_bounds_of_isNormalized {x : CF} (h : isNormalized x = true) :
    isFinite x = true ∧ 1 ≤ (exponent x).toNat := by
  simp only [isNormalized, Bool.and_eq_true, bne_iff_ne, Ne, exponent_eq_zero_iff] at h
  obtain ⟨hzero, hmax⟩ := h
  exact ⟨isFinite_iff.2 hmax, Nat.one_le_iff_ne_zero.2 hzero⟩

/-- Settles O41: the closed form cuts the exact sum at the place of the result. -/
theorem addSameSignTruncates : Obligations.AddSameSignTruncates := by
  intro a b s ha hb hsign
  obtain ⟨hafin, haexp⟩ := exponent_bounds_of_isNormalized ha
  obtain ⟨hbfin, hbexp⟩ := exponent_bounds_of_isNormalized hb
  have hpos : 1 ≤ maxExponent (cfOperand a) (cfOperand b) := haexp.trans (exponent_le_maxExponent _ _).1
  have hsum := le_aligned_sum (cfOperand a) (cfOperand b)
  have halt := alignedMantissa_lt (cfOperand a) (maxExponent (cfOperand a) (cfOperand b))
  have hblt := alignedMantissa_lt (cfOperand b) (maxExponent (cfOperand a) (cfOperand b))
  refine ⟨_, addFiniteResult a b s hafin hbfin, ?_⟩
  rw [addFiniteClosed_eq, if_pos hsign, magnitude_eq_units, magnitude_eq_units, ← add_div, ← Nat.cast_add]
  exact sumClosed_truncates _ hpos (maxExponent_le hafin hbfin) (by omega) (by omega) (units_add_div haexp hbexp)

/-! ### Different signs (R218, R221) -/

section
variable {p q : CF} (hp : isFinite p = true) (hsign : sign p ≠ sign q) (hexp : exponent p = exponent q)
include hp hsign hexp

/-- At equal exponent fields alignment shifts nothing out, and the difference of the mantissas is exact. -/
theorem value_addFiniteClosed_of_lt (hlt : (fullMantissa q).toNat < (fullMantissa p).toNat) :
    value (addFiniteClosed p q) = value p + value q := by
  have hexp' : (exponent p).toNat = (exponent q).toNat := congrArg BitVec.toNat hexp
  obtain ⟨hfull, himplicit⟩ := fullMantissa_bounds p
  obtain ⟨hs, hu⟩ := differenceClosed_units (sign p) (d := (fullMantissa p).toNat - (fullMantissa q).toNat)
    (e := (exponent p).toNat) (by omega) (by omega) (exponent_le_of_isFinite hp)
    fun h => by have := himplicit.2 ((exponent_eq_zero_iff p).2 h); omega
  have hclosed : addFiniteClosed p q =
      differenceClosed (sign p) ((fullMantissa p).toNat - (fullMantissa q).toNat) (exponent p).toNat := by
    rw [addFiniteClosed_eq, if_neg hsign, maxExponent, ← hexp', max_self, alignedMantissa_exponent, hexp',
      alignedMantissa_exponent, if_neg hlt.ne', if_pos hlt]
  rw [hclosed]
  refine value_add_of_sign_ne hsign hs ?_
  rw [hu, magnitudeUnits, magnitudeUnits, ← hexp', ← Nat.add_mul, Nat.sub_add_cancel hlt.le]

/-- The larger mantissa gives the sign, in whichever port; a tie is exactly 0. -/
theorem value_addFiniteClosed : value (addFiniteClosed p q) = value p + value q := by
  obtain hlt | heq | hgt := lt_trichotomy (fullMantissa p).toNat (fullMantissa q).toNat
  · have hq : isFinite q = true := by rwa [isFinite_iff, ← hexp, ← isFinite_iff]
    rw [addFiniteClosed_comm, add_comm, value_addFiniteClosed_of_lt hq hsign.symm hexp.symm hlt]
  · have hmant : mantissa p = mantissa q := by
      rw [fullMantissa_toNat, fullMantissa_toNat, hexp, Nat.add_left_cancel_iff] at heq
      exact BitVec.eq_of_toNat_eq heq
    have hunits : magnitudeUnits p = magnitudeUnits (zero (sign p)) + magnitudeUnits q := by
      rw [magnitudeUnits, magnitudeUnits, magnitudeUnits, heq, hexp, fullMantissa_eq_zero_iff.2 (isZero_zero _)]
      ring
    rw [addFiniteClosed_of_tie hsign hexp hmant, ← value_add_of_sign_ne hsign (sign_zero _) hunits, value_zero]
    exact value_zero 0#1
  · exact value_addFiniteClosed_of_lt hp hsign hexp hgt

end

/-- Settles O42: step 4 never raises the exponent, and at equal exponent fields its difference is exact. -/
theorem addDifferentSigns : Obligations.AddDifferentSigns := by
  intro a b s ha hb hsign
  refine ⟨_, addFiniteResult a b s ha hb, ?finite, value_addFiniteClosed ha hsign⟩
  obtain ⟨hlo, hhi⟩ := align_e_bounds ha hb
  rw [← addFinite_eq_closed ha hb, addFinite, if_neg hsign]
  exact isFinite_addDifferentSign _ _ hlo hhi

end Sys2Proof.Machine
end

section
/-! PROOFS. `finish` truncates (47_multiply.md R246 to R249): a place right cuts a magnitude one place further down, in
whichever loop, and what is packed in the end is the cut at the place of the result. -/

namespace Sys2Proof.Machine

/-! ### Magnitudes cut at a place -/

/-- R246: the magnitude of an integer mantissa with its exponent. -/
def scaledValue (v : Scaled) : ℚ := v.m * 2 ^ v.e

/-- `v` is the magnitude `x` cut below the place of the exponent `v.e`. -/
def Cuts (v : Scaled) (x : ℚ) : Prop := scaledValue v ≤ x ∧ x < (v.m + 1) * 2 ^ v.e

theorem cuts_scaledValue (v : Scaled) : Cuts v (scaledValue v) := by
  refine ⟨le_rfl, ?_⟩
  rw [scaledValue]
  gcongr
  linarith

/-- R11: the bits that `k` places right lose are below the place they leave. -/
theorem cuts_div_two_pow {v : Scaled} {x : ℚ} (h : Cuts v x) (k : ℕ) : Cuts ⟨v.m / 2 ^ k, v.e + k⟩ x := by
  obtain ⟨hle, hlt⟩ := h
  have hpos : (0 : ℚ) < 2 ^ v.e := by positivity
  have hlow : ((v.m / 2 ^ k : ℕ) : ℚ) * 2 ^ k ≤ v.m := by exact_mod_cast Nat.div_mul_le_self v.m (2 ^ k)
  have hhigh : (v.m : ℚ) + 1 ≤ ((v.m / 2 ^ k : ℕ) + 1) * 2 ^ k := by
    exact_mod_cast Nat.lt_mul_of_div_lt (Nat.lt_succ_self _) (Nat.two_pow_pos k)
  have hplace : (2 : ℚ) ^ (v.e + k) = 2 ^ k * 2 ^ v.e := by rw [zpow_add₀ two_ne_zero, zpow_natCast, mul_comm]
  rw [Cuts, scaledValue, hplace, ← mul_assoc, ← mul_assoc]
  exact ⟨(mul_le_mul_of_nonneg_right hlow hpos.le).trans hle, hlt.trans_le (mul_le_mul_of_nonneg_right hhigh hpos.le)⟩

theorem cuts_shr {v : Scaled} {x : ℚ} (h : Cuts v x) : Cuts v.shr x := by
  simpa only [Scaled.shr, Nat.shiftRight_eq_div_pow, Nat.cast_one] using cuts_div_two_pow h 1

theorem cuts_whileLoop_shr {cond : Scaled → Bool} {v : Scaled} {x : ℚ} (h : Cuts v x) (n : ℕ) :
    Cuts (whileLoop cond Scaled.shr n v) x :=
  whileLoop_invariant (P := (Cuts · x)) (fun _ hw _ => cuts_shr hw) n v h

/-- A change of exponent scales the magnitude. -/
theorem cuts_add_exponent {m : ℕ} {e : ℤ} {x : ℚ} (h : Cuts ⟨m, e⟩ x) (k : ℤ) : Cuts ⟨m, e + k⟩ (x * 2 ^ k) := by
  obtain ⟨hle, hlt⟩ := h
  have hpos : (0 : ℚ) < 2 ^ k := by positivity
  rw [Cuts, scaledValue, zpow_add₀ two_ne_zero, ← mul_assoc, ← mul_assoc]
  exact ⟨mul_le_mul_of_nonneg_right hle hpos.le, mul_lt_mul_of_pos_right hlt hpos⟩

/-- What leaves nothing at one place leaves nothing at a higher one. -/
theorem cuts_zero_mono {e e' : ℤ} {x : ℚ} (h : Cuts ⟨0, e⟩ x) (he : e ≤ e') : Cuts ⟨0, e'⟩ x := by
  obtain ⟨hle, hlt⟩ := h
  simp only [Cuts, scaledValue, Nat.cast_zero, zero_mul, zero_add, one_mul] at hle hlt ⊢
  exact ⟨hle, hlt.trans_le (zpow_le_zpow_right₀ one_le_two he)⟩

/-- R250: a magnitude cut at the place of the packed exponent, in units of `2^-13`, is truncated. -/
theorem truncatesTo_of_cuts (s : BitVec 1) {x : ℚ} {e m n : ℕ} (he : e ≤ 14) (hm : m < 256)
    (himplicit : m < 128 ↔ e = 0) (hn : n % 128 = m % 128) (h : Cuts ⟨m, (e - 1 : ℕ)⟩ (x * 2 ^ 13)) :
    TruncatesTo s x (pack s (BitVec.ofNat 4 e) (BitVec.ofNat 7 n)) := by
  obtain ⟨hle, hlt⟩ := h
  have hunits := magnitudeUnits_pack s (e := e) (by omega) hm himplicit hn
  have htrunc := truncatesTo_of_units (m := x) (r := pack s (BitVec.ofNat 4 e) (BitVec.ofNat 7 n))
    (isFinite_pack_ofNat he)
  rw [hunits, exponent_pack, toNat_exponentField (by omega), sign_pack, ← Nat.succ_mul] at htrunc
  simp only [scaledValue, zpow_natCast] at hle hlt
  exact htrunc (by exact_mod_cast hle) (by exact_mod_cast hlt)

/-! ### The parts of `finish` -/

/-- R249: `finish` after its loops, on the mantissa and the biased exponent. -/
def packBiased (sg : BitVec 1) (w : Scaled) : CF :=
  if w.m = 0 then zero sg
  else if w.m < 128 then pack sg (BitVec.ofInt 4 (w.e - 1)) (BitVec.ofNat 7 w.m)
  else pack sg (BitVec.ofInt 4 w.e) (BitVec.ofNat 7 (w.m &&& 0x7F))

theorem finish_eq {sg : BitVec 1} {m : ℕ} {e : ℤ} {v : Scaled} (h : whileLoop above8Bits Scaled.shr 7 ⟨m, e⟩ = v) :
    finish sg m e =
      if 14 < v.e + 7 then inf sg else packBiased sg (whileLoop belowNormal Scaled.shr 8 ⟨v.m, v.e + 7⟩) := by
  subst h
  rfl

/-- R246: the first loop keeps the eighth bit, halving only what has a ninth. -/
theorem le_above8Bits_loop_m {v : Scaled} (h : 128 ≤ v.m) (n : ℕ) :
    128 ≤ (whileLoop above8Bits Scaled.shr n v).m := by
  refine whileLoop_invariant (P := fun w : Scaled => 128 ≤ w.m) (fun w _ hc => ?_) n v h
  rw [above8Bits_iff] at hc
  rw [shr_m]
  omega

/-- R248: the second loop raises the exponent to 1 and no further, as long as anything is left of the mantissa; an
exponent it finds above is left as it is, with the implicit bit. -/
theorem belowNormal_loop_bounds {v : Scaled} (hlo : 128 ≤ v.m) (hhi : v.m < 256) (he : v.e ≤ 14) :
    (whileLoop belowNormal Scaled.shr 8 v).m < 256 ∧ (whileLoop belowNormal Scaled.shr 8 v).e ≤ 14 ∧
      ((whileLoop belowNormal Scaled.shr 8 v).m < 128 → (whileLoop belowNormal Scaled.shr 8 v).e ≤ 1) ∧
      ((whileLoop belowNormal Scaled.shr 8 v).m ≠ 0 → 1 ≤ (whileLoop belowNormal Scaled.shr 8 v).e) := by
  have hkept := whileLoop_invariant (cond := belowNormal) (body := Scaled.shr)
    (P := fun w => w.m < 256 ∧ w.e ≤ 14 ∧ (w.m < 128 → w.e ≤ 1))
    (fun w hw hc => by rw [belowNormal_iff] at hc; rw [shr_m, shr_e]; omega) 8 v ⟨hhi, he, by omega⟩
  have hexit := belowNormal_exits hhi
  rw [← Bool.not_eq_true, belowNormal_iff] at hexit
  generalize whileLoop belowNormal Scaled.shr 8 v = w at hkept hexit ⊢
  obtain ⟨hm, htop, hdenormal⟩ := hkept
  exact ⟨hm, htop, hdenormal, by omega⟩

/-- R249: a magnitude cut at a biased exponent that the loops leave is truncated by packing. -/
theorem packBiased_truncates (sg : BitVec 1) {w : Scaled} {x : ℚ} (h : Cuts w x) (hm : w.m < 256) (htop : w.e ≤ 14)
    (hdenormal : w.m < 128 → w.e ≤ 1) (hpos : w.m ≠ 0 → 1 ≤ w.e) : TruncatesTo sg (x / 2 ^ 14) (packBiased sg w) := by
  have hunits : Cuts ⟨w.m, w.e - 1⟩ (x / 2 ^ 14 * 2 ^ 13) := by
    convert cuts_add_exponent h (-1) using 1
    · rw [sub_eq_add_neg]
    · rw [zpow_neg_one]
      ring
  obtain ⟨m, e⟩ := w
  simp only at hm htop hdenormal hpos hunits
  simp only [packBiased]
  split_ifs with hzero hsmall
  · subst hzero
    exact truncatesTo_of_cuts sg (e := 0) (m := 0) (n := 0) (by omega) (by omega) (by omega) rfl
      (cuts_zero_mono hunits (Int.sub_nonpos_of_le (hdenormal (by omega))))
  · have hone : e = 1 := (hdenormal hsmall).antisymm (hpos hzero)
    subst hone
    exact truncatesTo_of_cuts sg (e := 0) (by omega) hm (by omega) rfl hunits
  · have he := hpos hzero
    obtain ⟨k, rfl⟩ := Int.eq_ofNat_of_zero_le (zero_le_one.trans he)
    simp only [BitVec.ofInt_natCast, and_mantissaMask]
    refine truncatesTo_of_cuts sg (m := m) (by omega) hm (by omega) (by omega) ?_
    rwa [Nat.cast_sub (by omega)]

/-- R246: `finish` truncates every magnitude that its mantissa and exponent are a cut of. -/
theorem finish_truncates (sg : BitVec 1) {m : ℕ} {e : ℤ} {x : ℚ} (hlo : 128 ≤ m) (hhi : m < 2 ^ 15)
    (h : Cuts ⟨m, e⟩ x) : TruncatesTo sg (x / 2 ^ 7) (finish sg m e) := by
  have hmin := le_above8Bits_loop_m (v := ⟨m, e⟩) hlo 7
  have hmax := above8Bits_loop_m_lt (v := ⟨m, e⟩) hhi
  have hcut := cuts_whileLoop_shr (cond := above8Bits) h 7
  generalize hv : whileLoop above8Bits Scaled.shr 7 ⟨m, e⟩ = v at hmin hmax hcut
  rw [finish_eq hv]
  split_ifs with htop
  · refine truncatesTo_inf sg ?_
    rw [le_div_iff₀ (by norm_num)]
    calc (256 : ℚ) * 2 ^ 7 = (128 : ℕ) * 2 ^ (8 : ℤ) := by norm_num
      _ ≤ scaledValue v := by
          rw [scaledValue]
          gcongr
          · exact one_le_two
          · omega
      _ ≤ x := hcut.1
  · obtain ⟨hm, he, hdenormal, hpos⟩ := belowNormal_loop_bounds (v := ⟨v.m, v.e + 7⟩) hmin hmax (by simp only; omega)
    have hbiased := cuts_whileLoop_shr (cond := belowNormal) (cuts_add_exponent hcut 7) 8
    convert packBiased_truncates sg hbiased hm he hdenormal hpos using 1
    rw [zpow_ofNat]
    ring

/-- Settles O48: the mantissa and exponent are a cut of their own magnitude. -/
theorem finishTruncates : Obligations.FinishTruncates := by
  intro sg m e hlo hhi
  have hscale : (m : ℚ) * 2 ^ (e - 7) = scaledValue ⟨m, e⟩ / 2 ^ 7 := by
    rw [zpow_sub₀ two_ne_zero, scaledValue, mul_div_assoc]
    rfl
  rw [hscale]
  exact finish_truncates sg hlo hhi (cuts_scaledValue _)

end Sys2Proof.Machine
end

section
/-! PROOFS. MUL (47_multiply.md): the special operands in their order, the exact product of finite ones truncated, and
what that says of 1.0 and -1.0. -/

namespace Sys2Proof.Machine

/-! ### MUL by the kinds of its operands (R241 to R243) -/

section
variable (cfg : Config) {p q : CF}

theorem multiply_of_isNan (h : isNan p = true ∨ isNan q = true) : multiply cfg p q = cfg.nan12 :=
  if_pos (by simpa using h)

theorem multiply_of_isZero (hp : isNan p = false) (hq : isNan q = false) (h : isZero p = true ∨ isZero q = true) :
    multiply cfg p q = zero (sign p ^^^ sign q) := by
  simp [multiply, hp, hq, h]

theorem multiply_of_isInfinity (hp : isNan p = false) (hq : isNan q = false) (hp0 : isZero p = false)
    (hq0 : isZero q = false) (h : isInfinity p = true ∨ isInfinity q = true) :
    multiply cfg p q = inf (sign p ^^^ sign q) := by
  simp [multiply, hp, hq, hp0, hq0, h]

theorem multiply_of_isFinite (hp : isFinite p = true) (hq : isFinite q = true) (hp0 : isZero p = false)
    (hq0 : isZero q = false) : multiply cfg p q = mulFinite (sign p ^^^ sign q) p q := by
  simp [multiply, isNan_of_isFinite, isInfinity_of_isFinite, hp, hq, hp0, hq0]

end

/-- Settles O45: the three cases of R241 to R243. -/
theorem mulSpecials : Obligations.MulSpecials := by
  intro a b s
  simp only [deliversCF_iff, exec_mul]
  refine ⟨fun hnan => ?_, fun ha hb hzero => ?_, fun ha hb ha0 hb0 hinf => ?_⟩
  · rw [multiply_of_isNan _ hnan]
  · rw [multiply_of_isZero _ ha hb hzero]
  · rw [multiply_of_isInfinity _ ha hb ha0 hb0 hinf]

/-! ### Left shifts keep the magnitude (R245) -/

theorem scaledValue_shl (v : Scaled) : scaledValue v.shl = scaledValue v := by
  rw [scaledValue, scaledValue, shl_m, shl_e, zpow_sub_one₀ two_ne_zero]
  push_cast
  field_simp

theorem scaledValue_whileLoop_shl (cond : Scaled → Bool) (n : ℕ) (v : Scaled) :
    scaledValue (whileLoop cond Scaled.shl n v) = scaledValue v :=
  whileLoop_invariant (P := fun w => scaledValue w = scaledValue v)
    (fun w hw _ => (scaledValue_shl w).trans hw) n v rfl

/-- A loop that shifts left while below a threshold reaches it, if all its rounds would. -/
theorem le_whileLoop_shl_m {cond : Scaled → Bool} {t : ℕ} (hcond : ∀ v, cond v = true ↔ v.m < t) {n : ℕ} {v : Scaled}
    (h : t ≤ v.m * 2 ^ n) : t ≤ (whileLoop cond Scaled.shl n v).m := by
  induction n generalizing v with
  | zero => simpa using h
  | succ n ih =>
    rw [whileLoop_succ]
    split_ifs with hc
    · exact ih (by rwa [shl_m, mul_assoc, ← pow_succ'])
    · exact not_lt.1 (mt (hcond v).2 hc)

/-! ### The exact product (R244, R250) -/

/-- R24: the magnitude of a finite pattern by the fields that MUL and DIV compute with. -/
theorem magnitude_eq_fullMantissa {x : CF} (h : isFinite x = true) :
    magnitude x = (fullMantissa x).toNat * 2 ^ unbiasedExponent x / 2 ^ 7 := by
  have hexp : unbiasedExponent x = ((exponent x).toNat - 1 : ℕ) - 6 := by
    rw [unbiasedExponent, if_neg (isFinite_iff.1 h)]
    split_ifs with hzero
    · simp [hzero]
    · rw [exponent_eq_zero_iff] at hzero
      omega
  rw [magnitude_eq_units, magnitudeUnits, hexp, zpow_sub₀ two_ne_zero, zpow_natCast, zpow_ofNat]
  push_cast
  ring

theorem magnitude_of_isZero {x : CF} (h : isZero x = true) : magnitude x = 0 := by
  rw [magnitude_eq_units, magnitudeUnits, fullMantissa_eq_zero_iff.2 h, zero_mul, Nat.cast_zero, zero_div]

theorem scaledValue_rawProduct {p q : CF} (hp : isFinite p = true) (hq : isFinite q = true) :
    scaledValue (rawProduct p q) = magnitude p * magnitude q * 2 ^ 14 := by
  rw [scaledValue, rawProduct, magnitude_eq_fullMantissa hp, magnitude_eq_fullMantissa hq, zpow_add₀ two_ne_zero]
  push_cast
  ring

/-- R245: fourteen places bring a product that is not 0 to the squared implicit bit. -/
theorem le_normalizedProduct_m {p q : CF} (hp : isZero p = false) (hq : isZero q = false) :
    16384 ≤ (normalizedProduct p q).m := by
  have hpos {x : CF} (hx : isZero x = false) : 0 < (fullMantissa x).toNat :=
    Nat.pos_of_ne_zero fun h0 => by simp [fullMantissa_eq_zero_iff.1 h0] at hx
  refine le_whileLoop_shl_m (fun _ => belowSquaredImplicit_iff) ?_
  have : 0 < (rawProduct p q).m := Nat.mul_pos (hpos hp) (hpos hq)
  omega

/-- R244 to R247: dropping seven places of the normalized product is a cut that `finish` continues. -/
theorem mulFinite_truncates (sg : BitVec 1) {p q : CF} (hp : isFinite p = true) (hq : isFinite q = true)
    (hp0 : isZero p = false) (hq0 : isZero q = false) :
    TruncatesTo sg (magnitude p * magnitude q) (mulFinite sg p q) := by
  have hlo := le_normalizedProduct_m hp0 hq0
  have hhi := normalizedProduct_m_lt p q
  have hvalue : scaledValue (normalizedProduct p q) = magnitude p * magnitude q * 2 ^ 14 :=
    (scaledValue_whileLoop_shl _ _ _).trans (scaledValue_rawProduct hp hq)
  have hcut := cuts_scaledValue (normalizedProduct p q)
  rw [hvalue] at hcut
  simp only [mulFinite, Nat.shiftRight_eq_div_pow]
  generalize normalizedProduct p q = v at hlo hhi hcut
  rw [if_neg (by omega)]
  convert finish_truncates sg (by omega) (by omega) (cuts_add_exponent (cuts_div_two_pow hcut 7) (-7)) using 1
  · rw [zpow_neg, zpow_ofNat]
    ring
  · simp

/-- R250: a zero operand has the exact product 0, and the signed zero. -/
theorem multiply_truncates (cfg : Config) {p q : CF} (hp : isFinite p = true) (hq : isFinite q = true) :
    TruncatesTo (sign p ^^^ sign q) (magnitude p * magnitude q) (multiply cfg p q) := by
  by_cases hzero : isZero p = true ∨ isZero q = true
  · have hproduct : magnitude p * magnitude q = magnitude (zero (sign p ^^^ sign q)) := by
      rw [magnitude_of_isZero (isZero_zero _), mul_eq_zero]
      exact hzero.imp magnitude_of_isZero magnitude_of_isZero
    rw [multiply_of_isZero cfg (isNan_of_isFinite hp) (isNan_of_isFinite hq) hzero, hproduct]
    simpa only [sign_zero] using truncatesTo_self (isFinite_zero (sign p ^^^ sign q))
  · simp only [not_or, Bool.not_eq_true] at hzero
    obtain ⟨hp0, hq0⟩ := hzero
    rw [multiply_of_isFinite cfg hp hq hp0 hq0]
    exact mulFinite_truncates _ hp hq hp0 hq0

/-- Settles O46: MUL delivers `multiply` of its operands. -/
theorem mulTruncatesExactProduct : Obligations.MulTruncatesExactProduct := fun a b s ha hb =>
  ⟨_, deliversCF_iff.2 (exec_mul a b s), multiply_truncates s.cfg ha hb⟩

/-! ### 1.0 and -1.0 (R250, 95_test_vectors.md Q14) -/

/-- A factor of magnitude 1 enters by its sign only, with an Infinity too. -/
theorem multiply_of_magnitude_one (cfg : Config) {p q : CF} (hp : isNan p = false) (hexp : exponent q = 7#4)
    (hmant : mantissa q = 0#7) : multiply cfg p q = pack (sign p ^^^ sign q) (exponent p) (mantissa p) := by
  have hq : isFinite q = true := isFinite_iff.2 (by rw [hexp]; decide)
  cases hinf : isInfinity p with
  | true =>
    obtain ⟨hexp15, hmant0⟩ := isInfinity_iff.1 hinf
    have hp0 : isZero p = false := by simp [isZero, hexp15]
    have hq0 : isZero q = false := by simp [isZero, hexp]
    rw [multiply_of_isInfinity cfg hp (isNan_of_isFinite hq) hp0 hq0 (.inl hinf), inf, hexp15, hmant0]
  | false =>
    have hpfin := isFinite_of_not_special hp hinf
    have hone : magnitude q = 1 := by
      rw [magnitude, hexp, hmant, if_neg (by decide)]
      norm_num
    have hproduct := multiply_truncates cfg hpfin hq
    rw [hone, mul_one] at hproduct
    refine truncatesTo_unique hproduct ?_
    have hself := truncatesTo_self (x := pack (sign p ^^^ sign q) (exponent p) (mantissa p))
      (by rwa [isFinite_iff, exponent_pack, ← isFinite_iff])
    rwa [sign_pack, magnitude, exponent_pack, mantissa_pack, ← magnitude] at hself

/-- Settles O47: 1.0 leaves the sign as it is, -1.0 flips it as NEG does. -/
theorem mulIdentities : Obligations.MulIdentities := by
  refine fun a b s ha => ⟨fun hb => ?one, fun hb => ?minusOne⟩
  case one =>
    have hleft : multiply s.cfg (cfOperand a) 0x380#12 = cfOperand a := by
      rw [multiply_of_magnitude_one s.cfg ha (by decide) (by decide), show sign 0x380#12 = 0#1 by decide,
        BitVec.xor_zero, pack_fields]
    rw [deliversCF_iff, deliversCF_iff, exec_mul, exec_mul, hb, multiply_comm_patterns _ 0x380#12, hleft]
    exact ⟨rfl, rfl⟩
  case minusOne =>
    obtain ⟨hsign, hexp, hmant⟩ := negate_fields (cfOperand a)
    have hflip : multiply s.cfg (cfOperand a) 0xB80#12 = negate (cfOperand a) := by
      rw [multiply_of_magnitude_one s.cfg ha (by decide) (by decide), show sign 0xB80#12 = 1#1 by decide, ← hsign,
        ← hexp, ← hmant, pack_fields]
    rw [deliversCF_iff, exec_mul, hb, hflip, negate]

end Sys2Proof.Machine
end

section
/-! PROOFS. The sign of MUL and DIV results (47_multiply.md R251, 48_divide.md R271): every result that is not
`P_NAN12` is a signed zero, a signed Infinity or packed with the sign it was handed. -/

namespace Sys2Proof.Machine

theorem sign_finish (sg : BitVec 1) (m : ℕ) (e : ℤ) : sign (finish sg m e) = sg := by
  rw [finish_eq rfl, packBiased]
  split_ifs
  · exact sign_inf sg
  · exact sign_zero sg
  · exact sign_pack sg _ _
  · exact sign_pack sg _ _

theorem sign_mulFinite (sg : BitVec 1) (p q : CF) : sign (mulFinite sg p q) = sg := by
  simp only [mulFinite]
  split_ifs
  · exact sign_zero sg
  · exact sign_finish sg _ _

theorem sign_divFinite (sg : BitVec 1) (p q : CF) : sign (divFinite sg p q) = sg := by
  unfold divFinite
  split_ifs
  · exact sign_zero sg
  · exact sign_finish sg _ _

section
variable (cfg : Config) (p q : CF)

theorem multiply_nan12_or_sign :
    multiply cfg p q = cfg.nan12 ∨ sign (multiply cfg p q) = sign p ^^^ sign q := by
  simp only [multiply]
  split_ifs
  · exact .inl rfl
  · exact .inr (sign_zero _)
  · exact .inr (sign_inf _)
  · exact .inr (sign_mulFinite _ p q)

theorem divide_nan12_or_sign :
    divide cfg p q = cfg.nan12 ∨ sign (divide cfg p q) = sign p ^^^ sign q := by
  simp only [divide]
  split_ifs
  · exact .inl rfl
  · exact .inl rfl
  · exact .inr (sign_inf _)
  · exact .inl rfl
  · exact .inr (sign_inf _)
  · exact .inr (sign_zero _)
  · exact .inr (sign_divFinite _ p q)

end

/-- Settles O54: a legal `P_NAN12` is a NaN, so a result that is none has the XOR sign. -/
theorem productAndQuotientSigns : Obligations.ProductAndQuotientSigns := by
  intro a b s hlegal
  have hsign {r : CF} {sg : BitVec 1} (h : r = s.cfg.nan12 ∨ sign r = sg) (hnum : isNan r = false) : sign r = sg :=
    h.resolve_left fun hnan => by simp [hnan, isNan_nan12_of_legal hlegal] at hnum
  exact ⟨⟨_, deliversCF_iff.2 (exec_mul a b s), hsign (multiply_nan12_or_sign _ _ _)⟩,
    ⟨_, deliversCF_iff.2 (exec_div a b s), hsign (divide_nan12_or_sign _ _ _)⟩⟩

end Sys2Proof.Machine
end

section
/-! PROOFS. DIV (48_divide.md): the special operands in their order (R269), the integer quotient of R265 truncated, and
that this quotient is itself a cut of the exact one. -/

namespace Sys2Proof.Machine

/-! ### DIV by the kinds of its operands (R261 to R264) -/

theorem isZero_of_isInfinity {x : CF} (h : isInfinity x = true) : isZero x = false := by
  simp [isZero, (isInfinity_iff.1 h).1]

section
variable (cfg : Config) {p q : CF}

theorem divide_of_isNan (h : isNan p = true ∨ isNan q = true) : divide cfg p q = cfg.nan12 :=
  if_pos (by simpa using h)

theorem divide_of_isZero_isZero (hp : isZero p = true) (hq : isZero q = true) :
    divide cfg p q = if cfg.zdzNan then cfg.nan12 else inf (sign p ^^^ sign q) := by
  simp [divide, isNan_of_isFinite (isFinite_of_isZero hp), isNan_of_isFinite (isFinite_of_isZero hq), hp, hq]

theorem divide_of_isZero_right (hp : isNan p = false) (hp0 : isZero p = false) (hq : isZero q = true) :
    divide cfg p q = inf (sign p ^^^ sign q) := by
  simp [divide, isNan_of_isFinite (isFinite_of_isZero hq), hp, hp0, hq]

theorem divide_of_isInfinity_isInfinity (hp : isInfinity p = true) (hq : isInfinity q = true) :
    divide cfg p q = cfg.nan12 := by
  simp [divide, isNan_of_isInfinity, isZero_of_isInfinity, hp, hq]

theorem divide_of_isInfinity_left (hp : isInfinity p = true) (hq : isFinite q = true) (hq0 : isZero q = false) :
    divide cfg p q = inf (sign p ^^^ sign q) := by
  simp [divide, isNan_of_isInfinity hp, isNan_of_isFinite hq, isInfinity_of_isFinite hq, hp, hq0]

theorem divide_of_isInfinity_right (hp : isFinite p = true) (hq : isInfinity q = true) :
    divide cfg p q = zero (sign p ^^^ sign q) := by
  simp [divide, isNan_of_isFinite hp, isNan_of_isInfinity hq, isInfinity_of_isFinite hp, isZero_of_isInfinity hq, hq]

theorem divide_of_isFinite (hp : isFinite p = true) (hq : isFinite q = true) (hq0 : isZero q = false) :
    divide cfg p q = divFinite (sign p ^^^ sign q) p q := by
  simp [divide, isNan_of_isFinite, isInfinity_of_isFinite, hp, hq, hq0]

end

/-- Settles O49: the cases of R261 to R264, in the order of R269. -/
theorem divSpecials : Obligations.DivSpecials := by
  intro a b s
  simp only [deliversCF_iff, exec_div]
  refine ⟨fun hnan => ?_, fun ha hb hzdz => ?_, fun ha hb hzdz => ?_, fun ha ha0 hb => ?_, fun ha hb => ?_,
    fun ha hb hb0 => ?_, fun ha hb => ?_⟩
  · rw [divide_of_isNan _ hnan]
  · rw [divide_of_isZero_isZero _ ha hb, if_pos hzdz]
  · rw [divide_of_isZero_isZero _ ha hb, if_neg (by simp [hzdz])]
  · rw [divide_of_isZero_right _ ha ha0 hb]
  · rw [divide_of_isInfinity_isInfinity _ ha hb]
  · rw [divide_of_isInfinity_left _ ha hb hb0]
  · rw [divide_of_isInfinity_right _ ha hb]

/-! ### The integer quotient (R265 to R267) -/

theorem fullMantissa_pos {x : CF} (h : isZero x = false) : 0 < (fullMantissa x).toNat :=
  Nat.pos_of_ne_zero fun h0 => by simp [fullMantissa_eq_zero_iff.1 h0] at h

theorem rawQuotient_m (p q : CF) : (rawQuotient p q).m = 128 * (fullMantissa p).toNat / (fullMantissa q).toNat := by
  rw [rawQuotient, Nat.shiftLeft_eq, mul_comm]

/-- R31: the largest quotient is that of the full mantissas 255 and 1. -/
theorem rawQuotient_m_le (p q : CF) : (rawQuotient p q).m ≤ 32640 := by
  have hp : (fullMantissa p).toNat < 256 := (fullMantissa p).isLt
  rw [rawQuotient_m]
  exact (Nat.div_le_self _ _).trans (by omega)

/-- R267: seven places bring a quotient that is not 0 to the implicit bit. -/
theorem le_normalizedQuotient_m {p q : CF} (h : (rawQuotient p q).m ≠ 0) : 128 ≤ (normalizedQuotient p q).m :=
  le_whileLoop_shl_m (fun _ => belowImplicit_iff) (by omega)

theorem scaledValue_normalizedQuotient (p q : CF) :
    scaledValue (normalizedQuotient p q) = scaledValue (rawQuotient p q) :=
  scaledValue_whileLoop_shl _ _ _

/-- A quotient that has the implicit bit is left as it is. -/
theorem normalizedQuotient_of_le {p q : CF} (h : 128 ≤ (rawQuotient p q).m) :
    normalizedQuotient p q = rawQuotient p q :=
  whileLoop_of_false (by rw [← Bool.not_eq_true, belowImplicit_iff]; omega) 7

/-- R113: of a finite pattern, the exponent field from 1 on, unbiased. -/
theorem unbiasedExponent_of_isFinite {x : CF} (h : isFinite x = true) :
    unbiasedExponent x = (max (exponent x).toNat 1 : ℕ) - 7 := by
  rw [unbiasedExponent, if_neg (isFinite_iff.1 h)]
  split_ifs with hzero
  · simp [hzero]
  · rw [exponent_eq_zero_iff] at hzero
    rw [max_eq_left (by omega)]

theorem scaledValue_rawQuotient {p q : CF} (hp : isFinite p = true) (hq : isFinite q = true) :
    scaledValue (rawQuotient p q) = fixedPointQuotient p q * 2 ^ 7 := by
  have hexp : (rawQuotient p q).e = (max (exponent p).toNat 1 : ℕ) - (max (exponent q).toNat 1 : ℕ) := by
    rw [rawQuotient, unbiasedExponent_of_isFinite hp, unbiasedExponent_of_isFinite hq, sub_sub_sub_cancel_right]
  rw [scaledValue, rawQuotient_m, hexp, zpow_sub₀ two_ne_zero, zpow_natCast, zpow_natCast, fixedPointQuotient]
  ring

/-- R265: the integer quotient is the exact one cut below the place of its exponent. -/
theorem cuts_rawQuotient {p q : CF} (hp : isFinite p = true) (hq : isFinite q = true) (hq0 : isZero q = false) :
    Cuts (rawQuotient p q) (magnitude p / magnitude q * 2 ^ 7) := by
  have hpos := fullMantissa_pos hq0
  have hposRat : (0 : ℚ) < (fullMantissa q).toNat := by exact_mod_cast hpos
  have hexact : magnitude p / magnitude q * 2 ^ 7 =
      (128 * (fullMantissa p).toNat : ℕ) / (fullMantissa q).toNat * 2 ^ (rawQuotient p q).e := by
    rw [magnitude_eq_fullMantissa hp, magnitude_eq_fullMantissa hq, rawQuotient, zpow_sub₀ two_ne_zero]
    push_cast
    field_simp
    norm_num
  rw [Cuts, scaledValue, hexact, rawQuotient_m]
  refine ⟨?_, ?_⟩
  · gcongr
    exact Nat.cast_div_le
  · gcongr
    rw [div_lt_iff₀ hposRat]
    exact_mod_cast Nat.lt_mul_of_div_lt (Nat.lt_succ_self _) hpos

/-- R265: the fixed-point quotient loses what is below its last place, so it is not above the exact one. -/
theorem fixedPointQuotient_le {p q : CF} (hp : isFinite p = true) (hq : isFinite q = true) (hq0 : isZero q = false) :
    fixedPointQuotient p q ≤ magnitude p / magnitude q := by
  obtain ⟨hle, -⟩ := cuts_rawQuotient hp hq hq0
  rw [scaledValue_rawQuotient hp hq] at hle
  exact le_of_mul_le_mul_right hle (by norm_num)

/-! ### The result for finite operands (R265 to R268, R270) -/

/-- R266: the first test of the finite case. -/
theorem divFinite_of_rawQuotient_zero (sg : BitVec 1) {p q : CF} (h : (rawQuotient p q).m = 0) :
    divFinite sg p q = zero sg := if_pos h

/-- R267, R268: DIV truncates every magnitude that the normalized quotient is a cut of. -/
theorem divFinite_truncates_of_cuts (sg : BitVec 1) {p q : CF} {x : ℚ} (h : (rawQuotient p q).m ≠ 0)
    (hcut : Cuts (normalizedQuotient p q) (x * 2 ^ 7)) : TruncatesTo sg x (divFinite sg p q) := by
  have hfinish := finish_truncates sg (m := (normalizedQuotient p q).m) (e := (normalizedQuotient p q).e)
    (le_normalizedQuotient_m h) (normalizedQuotient_m_lt p q) hcut
  rw [divFinite, if_neg h]
  rwa [mul_div_cancel_right₀ x (by norm_num)] at hfinish

theorem divFinite_truncates (sg : BitVec 1) {p q : CF} (hp : isFinite p = true) (hq : isFinite q = true) :
    TruncatesTo sg (fixedPointQuotient p q) (divFinite sg p q) := by
  have hvalue := scaledValue_rawQuotient hp hq
  by_cases hzero : (rawQuotient p q).m = 0
  · have hquotient : fixedPointQuotient p q = magnitude (zero sg) := by
      rw [scaledValue, hzero, Nat.cast_zero, zero_mul] at hvalue
      rw [magnitude_of_isZero (isZero_zero sg)]
      linarith
    rw [divFinite_of_rawQuotient_zero sg hzero, hquotient]
    simpa only [sign_zero] using truncatesTo_self (isFinite_zero sg)
  · refine divFinite_truncates_of_cuts sg hzero ?_
    rw [← hvalue, ← scaledValue_normalizedQuotient]
    exact cuts_scaledValue _

/-- R270: a dividend with the full mantissa not the smaller needs no left shift, and no bit is lost before the places
of the result. -/
theorem divFinite_truncates_exact (sg : BitVec 1) {p q : CF} (hp : isFinite p = true) (hq : isFinite q = true)
    (hq0 : isZero q = false) (h : (fullMantissa q).toNat ≤ (fullMantissa p).toNat) :
    TruncatesTo sg (magnitude p / magnitude q) (divFinite sg p q) := by
  have hlo : 128 ≤ (rawQuotient p q).m := by
    rw [rawQuotient_m, Nat.le_div_iff_mul_le (fullMantissa_pos hq0)]
    exact Nat.mul_le_mul_left 128 h
  refine divFinite_truncates_of_cuts sg (by omega) ?_
  rw [normalizedQuotient_of_le hlo]
  exact cuts_rawQuotient hp hq hq0

/-- DIV of a finite dividend by a finite nonzero divisor delivers `divFinite`. -/
theorem delivers_div_of_isFinite {a b : Word} (s : State) (ha : isFinite (cfOperand a) = true)
    (hb : isFinite (cfOperand b) = true) (hb0 : isZero (cfOperand b) = false) : DeliversCF (.div a b) s
      (divFinite (sign (cfOperand a) ^^^ sign (cfOperand b)) (cfOperand a) (cfOperand b)) := by
  rw [deliversCF_iff, exec_div, divide_of_isFinite _ ha hb hb0]

/-- Settles O50: `finish` continues the cut of the fixed-point quotient. -/
theorem divTruncatesFixedPointQuotient : Obligations.DivTruncatesFixedPointQuotient := fun _ _ s ha hb hb0 =>
  ⟨_, delivers_div_of_isFinite s ha hb hb0, divFinite_truncates _ ha hb⟩

theorem magnitude_pos {x : CF} (h : isZero x = false) : 0 < magnitude x := by
  have hunits : 0 < magnitudeUnits x := Nat.mul_pos (fullMantissa_pos h) (Nat.two_pow_pos _)
  rw [magnitude_eq_units]
  positivity

/-- A finite truncated magnitude does not exceed the exact one. -/
theorem magnitude_le_of_truncatesTo {s : BitVec 1} {m : ℚ} {r : CF} (h : TruncatesTo s m r) (hfin : isFinite r = true) :
    magnitude r ≤ m := by
  obtain ⟨-, rfl⟩ | ⟨-, -, hle, -⟩ := truncatesTo_cases h
  · simp [isFinite, inf] at hfin
  · exact hle

/-- Only from 256 on is a truncated magnitude saturated. -/
theorem le_of_truncatesTo_of_not_isFinite {s : BitVec 1} {m : ℚ} {r : CF} (h : TruncatesTo s m r)
    (hinf : isFinite r = false) : 256 ≤ m := by
  obtain ⟨hlarge, -⟩ | ⟨-, hfin, -⟩ := truncatesTo_cases h
  · exact hlarge
  · simp [hfin] at hinf

/-- Settles O51: the truncated fixed-point quotient is below the exact one, and equals its truncation where no left
shift was needed. -/
theorem divAgainstExactQuotient : Obligations.DivAgainstExactQuotient := by
  intro a b s ha hb hb0
  have hpos := magnitude_pos hb0
  have hbelow := fixedPointQuotient_le ha hb hb0
  have htrunc := divFinite_truncates (sign (cfOperand a) ^^^ sign (cfOperand b)) ha hb
  refine ⟨_, delivers_div_of_isFinite s ha hb hb0, fun hfin => ?_, fun hinf => ?_,
    divFinite_truncates_exact _ ha hb hb0⟩ <;> rw [← le_div_iff₀ hpos]
  · exact (magnitude_le_of_truncatesTo htrunc hfin).trans hbelow
  · exact (le_of_truncatesTo_of_not_isFinite htrunc hinf).trans hbelow

/-! ### n / n and n / 1.0 (R272) -/

theorem magnitude_one : magnitude 0x380#12 = 1 := by
  rw [magnitude_eq_units, show magnitudeUnits 0x380#12 = 2 ^ 13 by decide]
  norm_num

/-- R272: equal full mantissas divide exactly. -/
theorem divFinite_self {x : CF} (h : isFinite x = true) (h0 : isZero x = false) :
    divFinite (sign x ^^^ sign x) x x = 0x380#12 := by
  have hquotient := divFinite_truncates_exact 0#1 h h h0 le_rfl
  rw [div_self (magnitude_pos h0).ne', ← magnitude_one] at hquotient
  rw [BitVec.xor_self]
  exact truncatesTo_unique hquotient (truncatesTo_self (by decide))

/-- R272: the full mantissa of 1.0 is the 128 by which R265 scales the dividend. -/
theorem divFinite_one {x : CF} (h : isFinite x = true) : divFinite (sign x ^^^ sign 0x380#12) x 0x380#12 = x := by
  have hfull : (fullMantissa 0x380#12).toNat = 128 := by decide
  have hexp : unbiasedExponent 0x380#12 = 0 := by decide
  have hraw : fixedPointQuotient x 0x380#12 * 2 ^ 7 = magnitude x * 2 ^ 7 := by
    rw [← scaledValue_rawQuotient h (by decide), scaledValue, rawQuotient_m, rawQuotient, hfull, hexp, sub_zero,
      Nat.mul_div_cancel_left _ (by norm_num), magnitude_eq_fullMantissa h, div_mul_cancel₀ _ (by norm_num)]
  have hsign : sign x ^^^ sign 0x380#12 = sign x := BitVec.xor_zero
  have hquotient := divFinite_truncates (sign x) h (q := 0x380#12) (by decide)
  rw [mul_right_cancel₀ (by norm_num) hraw] at hquotient
  rw [hsign]
  exact truncatesTo_unique hquotient (truncatesTo_self h)

/-- Settles O52: each by its quotient. -/
theorem divIdentities : Obligations.DivIdentities := by
  refine ⟨fun a b s ha ha0 hb => ?self, fun a b s ha hb => ?one⟩
  case self =>
    have hdeliver := delivers_div_of_isFinite (b := b) s ha (hb ▸ ha) (hb ▸ ha0)
    rwa [hb, divFinite_self ha ha0] at hdeliver
  case one =>
    have hdeliver := delivers_div_of_isFinite (b := b) s ha (hb ▸ by decide) (hb ▸ by decide)
    rwa [hb, divFinite_one ha] at hdeliver

/-! ### The integer quotient 0 (R266) -/

theorem rawQuotient_m_eq_zero_iff {p q : CF} (h : isZero q = false) :
    (rawQuotient p q).m = 0 ↔ 128 * (fullMantissa p).toNat < (fullMantissa q).toNat := by
  rw [rawQuotient_m, Nat.div_eq_zero_iff_lt (fullMantissa_pos h)]

theorem fullMantissa_eq_one_iff {x : CF} : (fullMantissa x).toNat = 1 ↔ exponent x = 0#4 ∧ mantissa x = 1#7 := by
  rw [fullMantissa_toNat, ← BitVec.toNat_inj (x := mantissa x), BitVec.toNat_ofNat]
  split_ifs with hzero
  · simp [hzero]
  · exact iff_of_false (by omega) fun h => hzero h.1

theorem lt_fullMantissa_iff {x : CF} (h : isFinite x = true) :
    128 < (fullMantissa x).toNat ↔ isNormalized x = true ∧ mantissa x ≠ 0#7 := by
  have hmant : (mantissa x).toNat < 128 := (mantissa x).isLt
  have hnormalized : isNormalized x = true ↔ exponent x ≠ 0#4 := by simp [isNormalized, isFinite_iff.1 h]
  have hnonzero : mantissa x ≠ 0#7 ↔ (mantissa x).toNat ≠ 0 := BitVec.toNat_inj.not.symm
  rw [hnormalized, hnonzero, fullMantissa_toNat]
  split_ifs with hzero
  · exact iff_of_false (by omega) fun h => h.1 hzero
  · rw [and_iff_right hzero]
    omega

/-- R266: a divisor has eight bits, so 128 times a dividend is below it for a dividend of 0 or 1 at most. -/
theorem scaled_dividend_lt_iff {p q : CF} (hq : isFinite q = true) (hq0 : isZero q = false) :
    128 * (fullMantissa p).toNat < (fullMantissa q).toNat ↔ isZero p = true ∨
      (exponent p = 0#4 ∧ mantissa p = 1#7 ∧ isNormalized q = true ∧ mantissa q ≠ 0#7) := by
  have hpos := fullMantissa_pos hq0
  have hlt : (fullMantissa q).toNat < 256 := (fullMantissa q).isLt
  rw [← lt_fullMantissa_iff hq, ← and_assoc, ← fullMantissa_eq_one_iff, ← fullMantissa_eq_zero_iff]
  omega

/-- Settles O53: the test of R266, read on the fields. -/
theorem divQuotientZero : Obligations.DivQuotientZero := by
  intro a b s ha hb hb0
  refine ⟨rawQuotient_m_eq_zero_iff hb0, scaled_dividend_lt_iff hb hb0, fun hlt => ?_⟩
  rw [← divFinite_of_rawQuotient_zero _ ((rawQuotient_m_eq_zero_iff hb0).2 hlt)]
  exact delivers_div_of_isFinite s ha hb hb0

end Sys2Proof.Machine
end

section
/-! PROOFS. No command stops, and `err` tells the reserved codes from the defined ones (60_exceptions.md R302, R303). -/

namespace Sys2Proof.Machine

/-- Settles O8: every command is one answer, TOFP32 by the ranges of its builders. -/
theorem stepNeverStops : Obligations.StepNeverStops := fun s => by
  obtain ⟨y, err, hanswer⟩ := exec_answers s.command s.cfg
  exact ⟨_, hanswer s rfl⟩

/-- R66: a code from 12 on is one of the four reserved ones. -/
theorem exec_of_code_ge {i : Instr} (h : 12 ≤ i.code.toNat) (s : State) : exec i s = s.answerErr := by
  cases i with
  | reservedC a b => exact exec_reservedC a b s
  | reservedD a b => exact exec_reservedD a b s
  | reservedE a b => exact exec_reservedE a b s
  | reservedF a b => exact exec_reservedF a b s
  | _ => exact absurd h (by simp [Instr.code])

@[simp] theorem code_command (s : State) : s.command.code = s.op := code_decodePorts _ _ _

/-- Settles O10: a defined code answers with `err = 0`, a reserved one with `err = 1` and `y = 0`. -/
theorem errExactlyOnReservedCodes : Obligations.ErrExactlyOnReservedCodes := by
  intro s
  obtain hdefined | hreserved := lt_or_ge s.op.toNat 12
  · obtain ⟨y, hanswer⟩ := exec_answers_of_code_lt (i := s.command) (by rwa [code_command]) s
    exact ⟨_, hanswer, rfl, by simpa using hdefined, by simp⟩
  · exact ⟨_, exec_of_code_ge (by rwa [code_command]) s, rfl, by simpa using hreserved, fun _ => rfl⟩

end Sys2Proof.Machine
end

section
/-! PROOFS. Each loop reaches its exit within the rounds of 70_reset_and_hazards.md R335. A right shift lowers the
number of bits, a left shift reaches its threshold, and the loop of addition step 4 lowers the exponent. -/

namespace Sys2Proof.Machine

/-- R175: seven places bring a nonzero mantissa to bit 23. -/
theorem bit23Clear_exits {x : CF} (h : mantissa x ≠ 0#7) :
    bit23Clear (whileLoop bit23Clear Scaled.shl 7 (widen x)) = false := by
  have hk := log2_mantissa_le x
  obtain ⟨hlo, hhi⟩ := shiftedMantissa_bounds h
  have hplaces : (widen x).m * 2 ^ (7 - (mantissa x).toNat.log2) = shiftedMantissa x := by
    rw [widen, Nat.shiftLeft_eq]
    exact mantissa_mul_pow_mul_pow (by omega)
  rw [whileLoop_bit23Clear (Nat.sub_le ..) (by rwa [hplaces]) (by rwa [hplaces]), hplaces, ← Bool.not_eq_true,
    bit23Clear_iff hhi]
  exact hlo.not_gt

/-- R213: two mantissas of eight bits carry once at most. -/
theorem above8_exits (p q : CF) : above8 (carried (align p q)) = false := by
  have hp := alignedMantissa_lt p (maxExponent p q)
  have hq := alignedMantissa_lt q (maxExponent p q)
  rw [align_eq, carried_eq, above8, decide_eq_false_iff_not]
  split_ifs with hsum <;> simp only at hsum ⊢ <;> omega

/-- R214: each round lowers an exponent of at most 14, and not below 1. -/
theorem aboveDenormalFloor_exits (d : ℕ) {e : ℤ} (h : e ≤ 14) :
    aboveDenormalFloor (whileLoop aboveDenormalFloor Scaled.shl 13 ⟨d, e⟩) = false := by
  refine whileLoop_exits (fun w => (w.e - 1).toNat) (fun w hc => ?_) 13 _ (by simp only; omega)
  rw [aboveDenormalFloor_iff] at hc
  rw [shl_e]
  omega

/-- R31: the product of two full mantissas is at most `255 * 255`, and one below `2^14` is doubled only. -/
theorem normalizedProduct_m_le (p q : CF) : (normalizedProduct p q).m ≤ 65025 := by
  refine whileLoop_invariant (P := fun w : Scaled => w.m ≤ 65025) (fun w _ hc => ?_) 14 _ ?_
  · rw [belowSquaredImplicit_iff] at hc
    rw [shl_m]
    omega
  · have hfull (x : CF) : (fullMantissa x).toNat ≤ 255 := Nat.lt_succ_iff.1 (fullMantissa x).isLt
    exact Nat.mul_le_mul (hfull p) (hfull q)

/-- R267: the integer quotient, and one below `2^7` doubled. -/
theorem normalizedQuotient_m_le (p q : CF) : (normalizedQuotient p q).m ≤ 32640 := by
  refine whileLoop_invariant (P := fun w : Scaled => w.m ≤ 32640) (fun w _ hc => ?_) 7 _ (rawQuotient_m_le p q)
  rw [belowImplicit_iff] at hc
  rw [shl_m]
  omega

/-- R246: one place brings nine bits, all that MUL hands to `finish`, to eight. -/
theorem above8Bits_exits_of_nine_bits {v : Scaled} (h : v.m < 512) :
    above8Bits (whileLoop above8Bits Scaled.shr 1 v) = false := by
  refine whileLoop_exits (fun w => w.m / 256) (fun w hc => ?_) 1 v (by omega)
  rw [above8Bits_iff] at hc
  rw [shr_m]
  omega

/-- Settles O57: one lemma per loop; the two clauses of the dead loop are its condition, false at the start. -/
theorem loopsExitWithinBounds : Obligations.LoopsExitWithinBounds := by
  refine ⟨fun _ _ => bit23Clear_exits, fun _ => belowBoundary_exits, fun p q _ _ => above8_exits p q,
    fun p q hp hq => ?dead, fun p q hp hq => aboveDenormalFloor_exits _ (align_e_bounds hp hq).2,
    fun p q _ _ hp0 hq0 => ?product, fun p q _ _ _ hne => ?quotient, fun _ => above8Bits_exits_of_nine_bits,
    fun _ => above8Bits_exits, fun _ => belowNormal_exits⟩
  case dead =>
    have hdead := secondAddLoopIsDead p q hp hq
    exact ⟨hdead, whileLoop_of_false hdead _⟩
  case product =>
    have hlo := le_normalizedProduct_m hp0 hq0
    have hhi := normalizedProduct_m_le p q
    rw [Nat.shiftRight_eq_div_pow]
    omega
  case quotient =>
    refine ⟨?_, normalizedQuotient_m_le p q⟩
    rw [← Bool.not_eq_true, belowImplicit_iff]
    exact (le_normalizedQuotient_m hne).not_gt

end Sys2Proof.Machine
end
